-- ==== Sys2Proof/Word.lean ====
section
/-! DEFINITION. The block's words and its 128-bit values (00_scope R3, R9 to R12). Everything is unsigned (R11). -/

namespace Sys2Proof

/-- A 64-bit register word, bits numbered from 0, the least significant (R9). -/
abbrev Word := BitVec 64

/-- One byte of a host transaction (R44). -/
abbrev Byte := BitVec 8

/-- A byte offset in the block's 64-byte window, 0 to 63 (R8, R35). -/
abbrev Offset := BitVec 6

/-- A 128-bit value as the pair of its two 64-bit words (R3, R12). -/
structure Wide where
  lo : Word
  hi : Word
deriving DecidableEq, Repr

/-- The natural number a pair stands for: `lo + hi * 2^64` (R3). -/
def Wide.val (v : Wide) : Nat := v.lo.toNat + v.hi.toNat * 2 ^ 64

/-- The value 0, both words 0. -/
def Wide.zero : Wide := Wide.mk 0 0

end Sys2Proof
end

