-- ==== Sys2Proof/Config.lean ====
section
/-! DEFINITION. The open parameters of the platform and the implementation (00_scope R8, 20_memory R37, 93 I1 and I2). -/

namespace Sys2Proof

/-- The parameters the spec leaves OPEN, taken as an argument wherever one is used: the window's base address
(`WIDE128_BASE`, R37) and the three latencies in clock cycles (R8). No rule reads a latency (R124): the machine has no
cycle, and a completion may fire at any point (R73). notes/assumptions/10.md. -/
structure Config.Params where
  base : Nat
  latAdd : Nat
  latSub : Nat
  latMul : Nat
deriving DecidableEq, Repr

/-- What R8 says of the latencies: each is at least 1 (finite, being a Nat). -/
def Config.Params.admitted (p : Config.Params) : Bool :=
  decide (1 ≤ p.latAdd) && decide (1 ≤ p.latSub) && decide (1 ≤ p.latMul)

end Sys2Proof
end

