-- ==== Sys2Proof/Syntax.lean ====
section
/-! DEFINITION. The command set, the register window's names, the host's transactions, the events of a run, and the
host-side notation of 30_encoding (R57, R60, R64 to R67). -/

namespace Sys2Proof

/-- The three commands, one constructor per row of the opcode table (30_encoding R60). No command has an operand field:
each reads A and B and writes R (R58). -/
inductive Instr where
  | add
  | sub
  | mul
deriving DecidableEq, Repr

/-- The two fields of a command word, format CMD64 (R57). -/
structure CommandWord where
  op : BitVec 8
  res0 : BitVec 56
deriving DecidableEq, Repr

/-- What a 64-bit word written to CMD decodes to (R62): a command, or the illegal word, which R64 names `ILLEGAL(w)`. -/
inductive Command where
  | op (i : Instr)
  | illegal (w : Word)
deriving DecidableEq, Repr

/-- The eight names of the register window (20_memory R38). `cmd` is an address and no storage (R20). -/
inductive RegName where
  | aLo
  | aHi
  | bLo
  | bHi
  | rLo
  | rHi
  | cmd
  | status
deriving DecidableEq, Repr

/-- A host transaction: a read or a write of `n` bytes at a byte offset of the window (R13, R35). -/
inductive Transaction where
  | read (addr : Offset) (n : Nat)
  | write (addr : Offset) (n : Nat) (v : Word)
deriving DecidableEq, Repr

/-- An event in the single total order of a run (R50, R76, R114): a host transaction, a completion of the block, or a
change of the level of the `rst` input. -/
inductive Event where
  | host (t : Transaction)
  | completion
  | rst (level : Bool)
deriving DecidableEq, Repr

/-- One line of a host program (R65). `rd` names the register only: the value it returns stands among the responses. -/
inductive HostLine where
  | wr (name : RegName) (v : Word)
  | wrCmd (i : Instr)
  | rd (name : RegName)
deriving DecidableEq, Repr

/-- The pseudo-instructions of R66. `polls` is the number of STATUS reads of a `wait` that still see BUSY = 1 under the
schedule being shown (R67). -/
inductive Pseudo where
  | lda (lo hi : Word)
  | ldb (lo hi : Word)
  | go (i : Instr)
  | wait (polls : Nat)
  | exec (i : Instr) (polls : Nat)
  | getr
  | clrerr
deriving DecidableEq, Repr

end Sys2Proof
end

