-- ==== Sys2Proof/WellFormed.lean ====
section
/-! DEFINITION. Which terms are well formed: a command has no field that could be ill formed, a command WORD has two
(30_encoding R57, R58, R61). -/

namespace Sys2Proof

/-- Every command is well formed: it has no register field and no immediate field (R58). -/
def Instr.wellFormed : Instr → Bool
  | .add => true
  | .sub => true
  | .mul => true

/-- The reserved field RES0 must be 0 (R57, I16). -/
def CommandWord.reservedZero (c : CommandWord) : Bool := decide (c.res0 = 0)

/-- The operation code must be one of 0x01, 0x02, 0x03 (R60). -/
def CommandWord.opAssigned (c : CommandWord) : Bool :=
  decide (c.op = 0x01) || decide (c.op = 0x02) || decide (c.op = 0x03)

/-- A legal command word: both checks (R57, R60, R61). -/
def CommandWord.wellFormed (c : CommandWord) : Bool := c.reservedZero && c.opAssigned

end Sys2Proof
end

