-- ==== Sys2Proof/Decode.lean ====
section
/-! DEFINITION. Decoding the word written to CMD, total and by name, and the encoder (30_encoding R57 to R63; byte lanes
20_memory R44). -/

namespace Sys2Proof

/-- `decode` of R62: the three exact words, and every other word is illegal (R61). -/
def decode (w : Word) : Command :=
  if w = 0x1 then .op .add
  else if w = 0x2 then .op .sub
  else if w = 0x3 then .op .mul
  else .illegal w

/-- The two fields of a word (R57): OP is bits 7:0, RES0 is bits 63:8. -/
def commandFields (w : Word) : CommandWord :=
  { op := w.extractLsb' 0 8, res0 := w.extractLsb' 8 56 }

/-- Byte lane `k` of a 64-bit transaction carries bits `8k+7 : 8k` (R44). -/
def byteLane (w : Word) (k : Nat) : Byte := w.extractLsb' (8 * k) 8

/-- The eight bytes of a word in the order a little-endian store lays them out (R44). -/
def bytesOfWord (w : Word) : List Byte := (List.range 8).map (byteLane w)

/-- The word whose byte lanes are the listed bytes, the first in lane 0 (R44). -/
def wordOfBytes : List Byte → Word
  | [] => 0
  | b :: bs => b.setWidth 64 ||| (wordOfBytes bs <<< 8)

/-- Decoding from bytes. A command is exactly the eight bytes of one write (R57): any other number of bytes is no
command word at all (`none`). -/
def decodeBytes (bs : List Byte) : Option Command :=
  if bs.length = 8 then some (decode (wordOfBytes bs)) else none

/-- The command word of each command (R60). -/
def encode : Instr → Word
  | .add => 0x0000000000000001
  | .sub => 0x0000000000000002
  | .mul => 0x0000000000000003

/-- The command word in its byte lanes (R44). -/
def encodeBytes (i : Instr) : List Byte := bytesOfWord (encode i)

/-- The match value of a command's row in the opcode map (R60). -/
def matchOf : Instr → Word
  | .add => 0x0000000000000001
  | .sub => 0x0000000000000002
  | .mul => 0x0000000000000003

/-- The mask of a command's row in the opcode map (R60): all 64 bits. -/
def maskOf : Instr → Word
  | .add => 0xFFFFFFFFFFFFFFFF
  | .sub => 0xFFFFFFFFFFFFFFFF
  | .mul => 0xFFFFFFFFFFFFFFFF

/-- A word as the opcode table numbers it: its low `nbits` bits, every higher bit 0. The machine's unit is one 64-bit
word, so nothing above bit 63 belongs to a command. notes/assumptions/14.md. -/
def tableWord (nbits w : Nat) : Word := BitVec.ofNat 64 (w % 2 ^ nbits)

/-- The command the decoder reads from the table's numbering of the bits, through the byte lanes (R44, R57). -/
def decodeTableWord (nbits w : Nat) : Option Instr :=
  match decodeBytes (bytesOfWord (tableWord nbits w)) with
  | some (.op i) => some i
  | some (.illegal _) => none
  | none => none

end Sys2Proof
end

