-- ==== Sys2Proof/Machine/State.lean ====
section
/-! DEFINITION. The machine's state (10_state R15, R29, R33) and the reasons a step can stop. -/

namespace Sys2Proof.Machine

/-- Faults of the block: NONE. "WIDE128 never traps, never interrupts and never halts" (60_exceptions R100) and "itself
has no fault state, no stuck state and no refused command" (R128), so the type has no constructor; nobody raises one,
which is safe. -/
inductive Fault where
deriving DecidableEq, Repr

/-- Why a step may be refused. -/
inductive Refusal where
  /-- Raised by `exec` alone, for a command that has no meaning yet (none is left). Safe. -/
  | notModelled (mnemonic : String)
  /-- Raised by `runEvent` for a host transaction while `rst` is asserted: outside the spec, "a model gives it no step"
  (70_reset R114, 93 I3 "refuse"). Safe: the model stops where the spec says nothing. -/
  | transactionDuringReset
deriving DecidableEq, Repr

/-- The response of one host transaction (20_memory R35, R36): data, `ok`, or `BusError(addr)` (R13). -/
inductive Response where
  | data (v : Word)
  | ok
  | busError (addr : Offset)
deriving DecidableEq, Repr

/-- All the state the spec gives the block (R15), then three fields of the model's own for the other agents. -/
structure State where
  /-- Operand register A: `A_LO`, `A_HI` (R16). -/
  a : Wide
  /-- Operand register B: `B_LO`, `B_HI` (R17). -/
  b : Wide
  /-- Result register R: `R_LO`, `R_HI` (R18). -/
  r : Wide
  /-- `STATUS.BUSY` (R22). -/
  busy : Bool
  /-- `STATUS.UF` (R23). -/
  uf : Bool
  /-- `STATUS.ILL` (R24). -/
  ill : Bool
  /-- `STATUS.REJ` (R25). -/
  rej : Bool
  /-- Hidden `PEND_OP`: the accepted command, or none (R29). -/
  pendOp : Option Instr
  /-- Hidden `OPA`: the snapshot of A (R29). -/
  opa : Wide
  /-- Hidden `OPB`: the snapshot of B (R29). -/
  opb : Wide
  /-- The model's own: the level of the `rst` input (R34, R114). notes/assumptions/5.md. -/
  rst : Bool
  /-- The model's own: the events still to come, in their one total order (R50). notes/assumptions/1.md. -/
  events : List Event
  /-- The model's own: the responses returned so far, newest first (R35, R125). notes/assumptions/6.md. -/
  responses : List Response
deriving DecidableEq, Repr

/-- The machine right after reset (R33): every register, flag and hidden word 0, no command pending; `rst` deasserted,
nothing yet asked by the host and nothing answered (notes/assumptions/13.md). -/
def State.reset : State :=
  { a := Wide.zero
    b := Wide.zero
    r := Wide.zero
    busy := false
    uf := false
    ill := false
    rej := false
    pendOp := none
    opa := Wide.zero
    opb := Wide.zero
    rst := false
    events := []
    responses := [] }

end Sys2Proof.Machine
end

