-- ==== Sys2Proof/Machine/Flags.lean ====
section
/-! DEFINITION. The STATUS register: its value as the host reads it, and every way its four flags change (10_state R21 to
R27). -/

namespace Sys2Proof.Machine

/-- Bit `k` set to the flag, every other bit 0. -/
def flagBit (f : Bool) (k : Nat) : Word := (BitVec.ofBool f).setWidth 64 <<< k

/-- The 64-bit value of STATUS, REJ ILL UF BUSY from bit 3 down; bits 63:4 read 0 (R21, R38). -/
def statusWord (s : State) : Word :=
  flagBit s.busy 0 ||| flagBit s.uf 1 ||| flagBit s.ill 2 ||| flagBit s.rej 3

/-- A host write of `v` to STATUS: one clears ILL and REJ, all other bits are ignored (R26). -/
def writeStatus (v : Word) (s : State) : State :=
  { s with
    ill := s.ill && !v.getLsbD 2
    rej := s.rej && !v.getLsbD 3 }

/-- ILL is set by an illegal command write (R24). -/
def setIll (s : State) : State := { s with ill := true }

/-- REJ is set by a command write while BUSY = 1 (R25). -/
def setRej (s : State) : State := { s with rej := true }

/-- UF is set at the completion of a SUB that underflows (R23). -/
def setUf (s : State) : State := { s with uf := true }

/-- UF is cleared at every acceptance (R23). -/
def clearUf (s : State) : State := { s with uf := false }

end Sys2Proof.Machine
end

