-- ==== Sys2Proof/Machine/Operands.lean ====
section
/-! DEFINITION. The one operand form, implicit and snapshotted (30_encoding R58, R59; 40_command_lifecycle R69), and the
ordering of 128-bit values (00_scope R5). -/

namespace Sys2Proof.Machine

/-- The first operand `a` of every command: val(A) as it stands (R58). -/
def operandA (s : State) : Wide := s.a

/-- The second operand `b` of every command: val(B) as it stands (R58). -/
def operandB (s : State) : Wide := s.b

/-- Take both snapshots, as acceptance does (R69). No other step writes OPA or OPB but reset (R75). -/
def takeSnapshot (s : State) : State := { s with opa := operandA s, opb := operandB s }

/-- `a < b` by words, as the subtractor's failure tests define it (R5). -/
def wideLess (x y : Wide) : Bool := x.hi.ult y.hi || (x.hi == y.hi && x.lo.ult y.lo)

end Sys2Proof.Machine
end

