-- ==== Sys2Proof/Machine/Ops.lean ====
section
/-! DEFINITION. The named operations on the block's state: the register window, the command request, the publication of an
outcome, reset. The block takes no exception and returns from none (60_exceptions R100, R108, R109), so there is no such
operation here. -/

namespace Sys2Proof.Machine

/-! ## The register window (20_memory R36 to R43) -/

/-- A legal transaction: eight bytes at an offset that is a multiple of 8 (R36). -/
def legalAccess (addr : Offset) (n : Nat) : Bool := decide (n = 8) && decide (addr.extractLsb' 0 3 = 0)

/-- The offset of each register (R38). -/
def offsetOf : RegName → Offset
  | .aLo => 0x00
  | .aHi => 0x08
  | .bLo => 0x10
  | .bHi => 0x18
  | .rLo => 0x20
  | .rHi => 0x28
  | .cmd => 0x30
  | .status => 0x38

/-- The register whose eight bytes hold an offset; the eight registers fill the window (R38). -/
def regAt (addr : Offset) : RegName :=
  match addr.toNat / 8 with
  | 0 => .aLo
  | 1 => .aHi
  | 2 => .bLo
  | 3 => .bHi
  | 4 => .rLo
  | 5 => .rHi
  | 6 => .cmd
  | _ => .status

/-- The bus address of a register on a platform that places the window at `WIDE128_BASE` (R37). -/
def busAddress (p : Config.Params) (reg : RegName) : Nat := p.base + (offsetOf reg).toNat

/-- The offset a bus address stands for, none outside the 64-byte window (R8, R37). -/
def windowOffset (p : Config.Params) (addr : Nat) : Option Offset :=
  if p.base ≤ addr ∧ addr < p.base + 64 then some (BitVec.ofNat 6 (addr - p.base)) else none

/-- What a host read of a register returns (R38); CMD reads 0 (R20). -/
def readReg (reg : RegName) (s : State) : Word :=
  match reg with
  | .aLo => s.a.lo
  | .aHi => s.a.hi
  | .bLo => s.b.lo
  | .bHi => s.b.hi
  | .rLo => s.r.lo
  | .rHi => s.r.hi
  | .cmd => 0
  | .status => statusWord s

/-- The four operand words, each stored at any time (R40). -/
def writeALo (v : Word) (s : State) : State := { s with a := { lo := v, hi := s.a.hi } }

def writeAHi (v : Word) (s : State) : State := { s with a := { lo := s.a.lo, hi := v } }

def writeBLo (v : Word) (s : State) : State := { s with b := { lo := v, hi := s.b.hi } }

def writeBHi (v : Word) (s : State) : State := { s with b := { lo := s.b.lo, hi := v } }

/-- Record the response of a transaction, newest first (R35). -/
def respond (x : Response) (s : State) : State := { s with responses := x :: s.responses }

/-! ## The command request (40_command_lifecycle R69 to R71, 60_exceptions R106) -/

/-- Acceptance of a command while BUSY = 0 (R69): snapshot, UF cleared, BUSY set, the command pending. -/
def acceptCommand (i : Instr) (s : State) : State :=
  { clearUf (takeSnapshot s) with pendOp := some i, busy := true }

/-- Rejection of a command write while BUSY = 1 (R70): REJ alone changes. -/
def rejectCommand (s : State) : State := setRej s

/-- A legal command word written to CMD: rejected while busy, accepted otherwise (R106 points 2 and 4). -/
def requestCommand (i : Instr) (s : State) : State :=
  if s.busy then rejectCommand s else acceptCommand i s

/-- An illegal word written to CMD: rejected while busy without being examined, else ILL (R106 points 2 and 3, R71). -/
def requestIllegal (s : State) : State :=
  if s.busy then rejectCommand s else setIll s

/-! ## The outcome of a completion (R72) -/

/-- Write both words of R in one step (R18, R72). -/
def publishResult (r : Wide) (s : State) : State := { s with r := r }

/-- The command is over: BUSY cleared, nothing pending (R72). -/
def retireCommand (s : State) : State := { s with busy := false, pendOp := none }

/-! ## Reset (70_reset R114) -/

/-- The assertion of `rst`: one step that sets every piece of the block's state to its reset value. The other agents'
side, the events still to come and the responses already returned, is not the block's and stays. -/
def assertReset (s : State) : State :=
  { State.reset with rst := true, events := s.events, responses := s.responses }

/-- The release of `rst` changes no state of the block. -/
def releaseReset (s : State) : State := { s with rst := false }

end Sys2Proof.Machine
end

