-- ==== Sys2Proof/Machine/Add.lean ====
section
/-! DEFINITION. ADD: 128-bit addition with carry propagation (41_add R81 to R85). -/

namespace Sys2Proof.Machine

/-- The carry of the low words: 1 exactly when their exact sum exceeds a word (R82). -/
def addCarry (x y : Wide) : Nat := if x.lo.toNat + y.lo.toNat > 2 ^ 64 - 1 then 1 else 0

/-- `add128` of R81: wrapping low sum, wrapping high sum with the carry. -/
def add128 (x y : Wide) : Wide :=
  { lo := BitVec.ofNat 64 (x.lo.toNat + y.lo.toNat)
    hi := BitVec.ofNat 64 (x.hi.toNat + y.hi.toNat + addCarry x y) }

/-- The command word ADD written to CMD: accepted with its snapshot, or rejected while busy (R69, R70). Its result
appears at its completion, `completeAdd`. -/
def execAdd (s : State) : Host.Outcome State Fault Refusal := .next (requestCommand .add s)

/-- The completion of an ADD: both words of R in one step, no flag (R72, R81, R84). -/
def completeAdd (s : State) : State := retireCommand (publishResult (add128 s.opa s.opb) s)

end Sys2Proof.Machine
end

