-- ==== Sys2Proof/Machine/Mul.lean ====
section
/-! DEFINITION. MUL: the truncating product by shift-and-add (43_mul R93 to R99, 92 D24). -/

namespace Sys2Proof.Machine

/-- The high word's share of `a` shifted left by `i`: `a.hi << i` plus the bits of `a.lo` that leave the low word; for
`i = 0` nothing leaves it and no shift by 64 is made (R94). -/
def boundaryTerm (x : Wide) (i : Nat) : Word :=
  (x.hi <<< i) + (if 0 < i then x.lo >>> (64 - i) else 0)

/-- A wrapping add into the accumulator's high word alone (R93, R95). -/
def addHigh (t : Word) (acc : Wide) : Wide := { lo := acc.lo, hi := acc.hi + t }

/-- The low word's contribution, through `add128` so that its carry enters the high word (R95). -/
def addLow (x : Wide) (i : Nat) (acc : Wide) : Wide := add128 acc { lo := x.lo <<< i, hi := 0 }

/-- One turn of the loop over the bits of `b.lo` (R93). -/
def mulLowStep (x y acc : Wide) (i : Nat) : Wide :=
  if y.lo.getLsbD i then addLow x i (addHigh (boundaryTerm x i) acc) else acc

/-- One turn of the loop over the bits of `b.hi`: the high word only, and `a.hi` is not read (R93, R98). -/
def mulHighStep (x y acc : Wide) (i : Nat) : Wide :=
  if y.hi.getLsbD i then addHigh (x.lo <<< i) acc else acc

/-- `mul128` of R93: the two loops, each over bits 0 to 63. -/
def mul128 (x y : Wide) : Wide :=
  (List.range 64).foldl (mulHighStep x y) ((List.range 64).foldl (mulLowStep x y) Wide.zero)

/-- The command word MUL written to CMD: accepted with its snapshot, or rejected while busy (R69, R70). Its result
appears at its completion, `completeMul`. -/
def execMul (s : State) : Host.Outcome State Fault Refusal := .next (requestCommand .mul s)

/-- The completion of a MUL: both words of R in one step, no flag (R72, R93). -/
def completeMul (s : State) : State := retireCommand (publishResult (mul128 s.opa s.opb) s)

end Sys2Proof.Machine
end

