-- ==== Sys2Proof/Machine/Sub.lean ====
section
/-! DEFINITION. SUB: 128-bit subtraction with borrow, or Underflow (42_sub R86 to R92). -/

namespace Sys2Proof.Machine

/-- `sub128` of R86, its steps in the spec's order; `none` is the outcome Underflow. The borrow step uses the decremented
copy of the high word (R88, 90_conflicts C1). The differences are exact natural numbers that fit a word (R89). -/
def sub128 (x y : Wide) : Option Wide :=
  if x.hi.toNat < y.hi.toNat then none
  else if x.hi.toNat = y.hi.toNat ∧ x.lo.toNat < y.lo.toNat then none
  else if x.lo.toNat < y.lo.toNat then
    some
      { lo := BitVec.ofNat 64 ((2 ^ 64 - y.lo.toNat) + x.lo.toNat)
        hi := BitVec.ofNat 64 ((x.hi.toNat - 1) - y.hi.toNat) }
  else
    some
      { lo := BitVec.ofNat 64 (x.lo.toNat - y.lo.toNat)
        hi := BitVec.ofNat 64 (x.hi.toNat - y.hi.toNat) }

/-- The command word SUB written to CMD: accepted with its snapshot, or rejected while busy (R69, R70). Its outcome
appears at its completion, `completeSub`. -/
def execSub (s : State) : Host.Outcome State Fault Refusal := .next (requestCommand .sub s)

/-- The completion of a SUB: UF and R unchanged on Underflow, else both words of R (R72, R86, R91). -/
def completeSub (s : State) : State :=
  match sub128 s.opa s.opb with
  | none => retireCommand (setUf s)
  | some d => retireCommand (publishResult d s)

end Sys2Proof.Machine
end

