-- ==== Sys2Proof/Machine/Completion.lean ====
section
/-! DEFINITION. The block's only step: the completion of the pending command (40_command_lifecycle R72, R73, R76). -/

namespace Sys2Proof.Machine

/-- Completion is enabled exactly when BUSY = 1 (R72), and none is performed while `rst` is asserted (R114). -/
def completionEnabled (s : State) : Bool := s.busy && !s.rst

/-- The completion of R72. BUSY = 1 with nothing pending cannot arise (R22, `Consistent`): there the command merely ends
(notes/assumptions/8.md). -/
def complete (s : State) : State :=
  match s.pendOp with
  | some .add => completeAdd s
  | some .sub => completeSub s
  | some .mul => completeMul s
  | none => retireCommand s

/-- The completion as an event: it is a step of the block where enabled and no step where not (R72, R76). -/
def completeIfEnabled (s : State) : State := if completionEnabled s then complete s else s

end Sys2Proof.Machine
end

