-- ==== Sys2Proof/Machine/Transactions.lean ====
section
/-! DEFINITION. The host's transactions: what each read and write of the window does and answers (20_memory R35 to R43,
60_exceptions R106). -/

namespace Sys2Proof.Machine

/-- Answer `x` once an instruction's effect has happened; a stop stays a stop. -/
def respondAfter (x : Response) (o : Host.Outcome State Fault Refusal) : Host.Outcome State Fault Refusal :=
  match o with
  | .next s => .next (respond x s)
  | .fault f => .fault f
  | .refused f => .refused f

/-- A legal write of `w` to CMD: the command it decodes to, or an illegal word; the write returns `ok` whatever becomes of
it (R41, R69 to R71). -/
def writeCmd (w : Word) (s : State) : Host.Outcome State Fault Refusal :=
  respondAfter .ok
    (match decode w with
     | .op i => exec i s
     | .illegal _ => .next (requestIllegal s))

/-- A legal write of `v` to a register (R38): operands are stored, R ignores it (R43), CMD takes a command, STATUS clears
its sticky flags (R42). -/
def writeReg (reg : RegName) (v : Word) (s : State) : Host.Outcome State Fault Refusal :=
  match reg with
  | .aLo => .next (respond .ok (writeALo v s))
  | .aHi => .next (respond .ok (writeAHi v s))
  | .bLo => .next (respond .ok (writeBLo v s))
  | .bHi => .next (respond .ok (writeBHi v s))
  | .rLo => .next (respond .ok s)
  | .rHi => .next (respond .ok s)
  | .cmd => writeCmd v s
  | .status => .next (respond .ok (writeStatus v s))

/-- One host transaction. One that is not legal changes nothing and returns `BusError` (R36). -/
def transact (t : Transaction) (s : State) : Host.Outcome State Fault Refusal :=
  match t with
  | .read addr n =>
    if legalAccess addr n then .next (respond (.data (readReg (regAt addr) s)) s)
    else .next (respond (.busError addr) s)
  | .write addr n v =>
    if legalAccess addr n then writeReg (regAt addr) v s
    else .next (respond (.busError addr) s)

end Sys2Proof.Machine
end

