-- ==== Sys2Proof/Machine/Events.lean ====
section
/-! DEFINITION. One event of the total order (20_memory R50, 40_command_lifecycle R76, 70_reset R114), and what happens
when no event is left (R73, R125). -/

namespace Sys2Proof.Machine

/-- Perform one event, already taken off the list. A transaction while `rst` is asserted has no step (R114, I3). -/
def runEvent (e : Event) (s : State) : Host.Outcome State Fault Refusal :=
  match e with
  | .host t => if s.rst then .refused .transactionDuringReset else transact t s
  | .completion => .next (completeIfEnabled s)
  | .rst true => .next (assertReset s)
  | .rst false => .next (releaseReset s)

/-- Take the first event off the list. -/
def takeEvents (rest : List Event) (s : State) : State := { s with events := rest }

/-- Place a legal write of a command word as the very next event, with `rst` deasserted so that it is performed. -/
def placeCommand (w : Word) (s : State) : State :=
  { s with rst := false, events := .host (.write 0x30 8 w) :: s.events }

end Sys2Proof.Machine
end

