-- ==== Sys2Proof/Machine/Step.lean ====
section
/-! DEFINITION. One step of the machine, and the placing of a command where the next step finds it. -/

namespace Sys2Proof.Machine

/-- One step: the next event in order (R50). When no event is left, the pending command completes (R73, R125: weak
fairness makes it fire), and an idle block has no step to take (R76), so the state stays.
notes/assumptions/2.md and 4.md. -/
def step (s : State) : Host.Outcome State Fault Refusal :=
  match s.events with
  | [] => .next (completeIfEnabled s)
  | e :: rest => runEvent e (takeEvents rest s)

/-- `s` with the command word of the table's bits as the host's next write to CMD (R57, R63).
notes/assumptions/11.md. -/
def State.withFetchWord (s : State) (nbits w : Nat) : State := placeCommand (tableWord nbits w) s

end Sys2Proof.Machine
end

