-- ==== Sys2Proof/Machine/Wire.lean ====
section
/-! DEFINITION. The source's external 16-byte wire format (20_memory R55, R56). It is HOST SIDE and no part of the block
(00_scope R7); the machine never calls it. notes/assumptions/15.md. -/

namespace Sys2Proof.Machine

/-- Byte `i` of one word's eight: `(w >> 4i) & 0xFF`, nibble-indexed and byte-masked (R55). -/
def wireByte (w : Word) (i : Nat) : Byte := (w >>> (4 * i)).setWidth 8

/-- The 16 bytes of a value: eight of the low word, then eight of the high word (R55). -/
def wireBytes (v : Wide) : List Byte :=
  (List.range 8).map (wireByte v.lo) ++ (List.range 8).map (wireByte v.hi)

end Sys2Proof.Machine
end

