-- ==== Sys2Proof/Safety.lean ====
section
/-! DEFINITION. The terms claims are stated in: the block's state apart from the other agents', the invariant of the
machine, and runs of several steps. -/

namespace Sys2Proof.Machine

/-- The block's own state (R15), with the other agents' fields blanked: two states with the same `blockOf` agree on every
register, flag and hidden word. -/
def blockOf (s : State) : State := { s with rst := false, events := [], responses := [] }

/-- What holds in every state a run can reach: BUSY is 1 exactly while a command is pending (R22), UF reads 0 while
BUSY = 1 (R23), and while `rst` is asserted the block holds its reset values (R114). -/
structure Consistent (s : State) : Prop where
  pending : s.busy = s.pendOp.isSome
  ufClear : s.busy = true → s.uf = false
  inReset : s.rst = true → blockOf s = State.reset

/-- The block has nothing pending and is not held in reset: a command written now is accepted (R69, R114). -/
def Idle (s : State) : Prop := s.busy = false ∧ s.rst = false

/-- Several steps, stopping where a step stops. -/
def runSteps : Nat → State → Host.Outcome State Fault Refusal
  | 0, s => .next s
  | k + 1, s =>
    match step s with
    | .next t => runSteps k t
    | .fault f => .fault f
    | .refused f => .refused f

/-- The block's step is next: a completion stands first, or no event is left (R72, R125). The second is the model's form
of weak fairness (notes/assumptions/2.md). -/
def CompletesNext (s : State) : Prop := s.events = [] ∨ s.events.head? = some .completion

/-- The next event is a command write that will be accepted (R69). -/
def AcceptsNext (s : State) : Prop :=
  s.busy = false ∧ s.rst = false ∧
    ∃ (w : Word) (i : Instr) (rest : List Event), s.events = .host (.write 0x30 8 w) :: rest ∧ decode w = .op i

/-- The next step completes the pending command (R72, R114). -/
def CompletesCommand (s : State) : Prop := s.busy = true ∧ s.rst = false ∧ CompletesNext s

/-- The next step completes a SUB whose snapshot operands underflow (R23, R87). -/
def UnderflowsNext (s : State) : Prop :=
  CompletesCommand s ∧ s.pendOp = some .sub ∧ s.opa.val < s.opb.val

/-- The next event asserts `rst` (R114). -/
def ResetsNext (s : State) : Prop := s.events.head? = some (.rst true)

/-- The next event is a legal host write of `v` to the register at `off`. -/
def WritesNext (s : State) (off : Offset) (v : Word) : Prop := s.events.head? = some (.host (.write off 8 v))

/-- No change of the `rst` level stands among the events. -/
def NoReset (es : List Event) : Prop := ∀ level, Event.rst level ∉ es

end Sys2Proof.Machine
end

