-- ==== Sys2Proof/Certificates/Slice0/Obligations.lean ====
section
/-! DEFINITION. What is claimed of the machine, from the numbered rules of the spec. Every statement holds for every
list of events, that is for every order of transactions and completions the spec allows (20_memory R50,
40_command_lifecycle R73). -/

open Sys2Proof Sys2Proof.Machine

/-! ## Reset and the invariant -/

/-- R33: what every piece of state holds after reset. -/
def Obligations.ResetState : Prop :=
  State.reset.a = { lo := 0, hi := 0 } ∧ State.reset.b = { lo := 0, hi := 0 } ∧ State.reset.r = { lo := 0, hi := 0 } ∧
    statusWord State.reset = 0 ∧ State.reset.busy = false ∧ State.reset.uf = false ∧ State.reset.ill = false ∧
    State.reset.rej = false ∧ State.reset.pendOp = none ∧ State.reset.opa = { lo := 0, hi := 0 } ∧
    State.reset.opb = { lo := 0, hi := 0 }

/-- The assertion of `rst` sets every piece of state in one step (R114) and leaves nothing pending, and while `rst` is
asserted there is no transaction and no completion (R114, R76). How the model gives these NO step is its own choice, not
the spec's: a transaction is REFUSED (notes/assumptions/5.md), a listed completion is taken off the list with no effect
while `rst` is asserted or BUSY = 0 (notes/assumptions/3.md), and with no event listed the step answers the same state
(notes/assumptions/4.md). The release of `rst` as an event that changes nothing but the level is the model's too
(notes/assumptions/5.md). -/
def Obligations.ResetAssertion : Prop :=
  ∀ (s : State) (rest : List Event),
    (s.events = .rst true :: rest →
      step s = .next
        { a := { lo := 0, hi := 0 }, b := { lo := 0, hi := 0 }, r := { lo := 0, hi := 0 }, busy := false, uf := false,
          ill := false, rej := false, pendOp := none, opa := { lo := 0, hi := 0 }, opb := { lo := 0, hi := 0 },
          rst := true, events := rest, responses := s.responses }) ∧
    (s.events = .rst false :: rest → step s = .next { s with rst := false, events := rest }) ∧
    (s.rst = true → ∀ x, s.events = .host x :: rest → step s = .refused .transactionDuringReset) ∧
    (s.rst = true → s.events = .completion :: rest → step s = .next { s with events := rest }) ∧
    (s.rst = true → s.events = [] → step s = .next s) ∧
    (s.busy = false → s.events = .completion :: rest → step s = .next { s with events := rest })

/-- The invariant holds at reset (R22, R23, R33). -/
def Obligations.ResetMeetsInvariant : Prop := Consistent State.reset

/-- Every step keeps the invariant, from every state that meets it: BUSY is 1 exactly while a command is pending (R22),
UF reads 0 while BUSY = 1 (R23), and the block holds its reset values while `rst` is asserted (R114). -/
def Obligations.StepKeepsInvariant : Prop :=
  ∀ s t : State, Consistent s → step s = .next t → Consistent t

/-! ## Encoding -/

/-- R62: decoding is total, each word is exactly one of the three commands or illegal. -/
def Obligations.DecodingIsTotal : Prop :=
  ∀ w : Word,
    (decode w = .op .add ↔ w = 0x1) ∧ (decode w = .op .sub ↔ w = 0x2) ∧ (decode w = .op .mul ↔ w = 0x3) ∧
      (decode w = .illegal w ↔ w ≠ 0x1 ∧ w ≠ 0x2 ∧ w ≠ 0x3) ∧
      (decode w = .op .add ∨ decode w = .op .sub ∨ decode w = .op .mul ∨ decode w = .illegal w)

/-- R60: a word is a given command exactly when it meets the row's mask and match; each command is one exact word. -/
def Obligations.OpcodeMapMatches : Prop :=
  encode .add = 0x0000000000000001 ∧ encode .sub = 0x0000000000000002 ∧ encode .mul = 0x0000000000000003 ∧
    ∀ (i : Instr) (w : Word),
      maskOf i = 0xFFFFFFFFFFFFFFFF ∧ matchOf i = encode i ∧
        (decode w = .op i ↔ w &&& maskOf i = matchOf i) ∧ (decode w = .op i ↔ w = encode i)

/-- R61: every other word is illegal, whichever of its fields makes it so, and written while BUSY = 0 it sets ILL and
does nothing else. -/
def Obligations.OtherWordsAreIllegal : Prop :=
  ∀ w : Word,
    (w ≠ 0x1 → w ≠ 0x2 → w ≠ 0x3 →
      decode w = .illegal w ∧
        ∀ (s : State) (rest : List Event), s.busy = false → s.rst = false →
          s.events = .host (.write 0x30 8 w) :: rest →
          step s = .next { s with ill := true, events := rest, responses := .ok :: s.responses }) ∧
    (((commandFields w).op = 0x00 ∨ 0x04 ≤ (commandFields w).op.toNat ∨ (commandFields w).res0 ≠ 0) ↔
      (w ≠ 0x1 ∧ w ≠ 0x2 ∧ w ≠ 0x3))

/-- The encoder and the decoder agree on bytes, in both directions: a command's bytes decode to it, and no other list of
bytes does (R44, R57, R60). -/
def Obligations.CommandBytesRoundTrip : Prop :=
  ∀ i : Instr, i.wellFormed = true →
    decodeBytes (encodeBytes i) = some (.op i) ∧
      ∀ bs : List Byte, decodeBytes bs = some (.op i) → bs = encodeBytes i

/-- The words of the decode table 95_test_vectors 2.4. -/
def Obligations.DecodeTableWords : Prop :=
  decode 0x0000000000000001 = .op .add ∧ decode 0x0000000000000002 = .op .sub ∧
    decode 0x0000000000000003 = .op .mul ∧ decode 0x0000000000000000 = .illegal 0x0 ∧
    decode 0x0000000000000004 = .illegal 0x4 ∧ decode 0x00000000000000FF = .illegal 0xFF ∧
    decode 0x0000000000000101 = .illegal 0x101 ∧ decode 0x8000000000000003 = .illegal 0x8000000000000003

/-- The byte lanes of a word (R44): lane k carries bits 8k+7 to 8k, and the lanes make the word again. -/
def Obligations.ByteLanesLittleEndian : Prop :=
  ∀ w : Word,
    (∀ k j : Nat, k < 8 → j < 8 → (byteLane w k).getLsbD j = w.getLsbD (8 * k + j)) ∧
      (bytesOfWord w).length = 8 ∧ wordOfBytes (bytesOfWord w) = w

/-! ## Writing a command -/

/-- A legal write of a command word to CMD runs the decoded command on the state less that event, and answers `ok`
(R41, R63). -/
def Obligations.StepRunsDecodedCommand : Prop :=
  ∀ (s : State) (rest : List Event) (w : Word) (i : Instr),
    s.rst = false → s.events = .host (.write 0x30 8 w) :: rest → decode w = .op i →
      step s =
        (match exec i { s with events := rest } with
         | .next t => .next { t with responses := .ok :: t.responses }
         | .fault f => .fault f
         | .refused x => .refused x)

/-- R69: acceptance, by the command's own meaning and as the step of its write. -/
def Obligations.CommandAcceptance : Prop :=
  ∀ s : State, s.busy = false →
    exec .add s =
        .next { s with pendOp := some .add, opa := s.a, opb := s.b, uf := false, busy := true } ∧
      exec .sub s =
        .next { s with pendOp := some .sub, opa := s.a, opb := s.b, uf := false, busy := true } ∧
      exec .mul s =
        .next { s with pendOp := some .mul, opa := s.a, opb := s.b, uf := false, busy := true } ∧
      ∀ (w : Word) (i : Instr) (rest : List Event), s.rst = false → decode w = .op i →
        s.events = .host (.write 0x30 8 w) :: rest →
        step s = .next
          { s with
            pendOp := some i, opa := s.a, opb := s.b, uf := false, busy := true, events := rest,
            responses := .ok :: s.responses }

/-- R70: a write of any value to CMD while BUSY = 1 sets REJ and changes nothing else. -/
def Obligations.CommandRejection : Prop :=
  ∀ s : State, s.busy = true →
    exec .add s = .next { s with rej := true } ∧ exec .sub s = .next { s with rej := true } ∧
      exec .mul s = .next { s with rej := true } ∧
      ∀ (v : Word) (rest : List Event), s.rst = false → s.events = .host (.write 0x30 8 v) :: rest →
        step s = .next { s with rej := true, events := rest, responses := .ok :: s.responses }

/-- R71: an illegal word written while BUSY = 0 sets ILL and changes nothing else. -/
def Obligations.IllegalCommandWrite : Prop :=
  ∀ (s : State) (v : Word) (rest : List Event), s.busy = false → s.rst = false → decode v = .illegal v →
    s.events = .host (.write 0x30 8 v) :: rest →
    step s = .next { s with ill := true, events := rest, responses := .ok :: s.responses }

/-- The precedence inside one write to CMD's eight bytes (R106): BusError, busy, illegal, accepted. -/
def Obligations.CommandWritePrecedence : Prop :=
  ∀ (s : State) (addr : Offset) (n : Nat) (v : Word) (rest : List Event),
    s.rst = false → addr.toNat / 8 = 6 → s.events = .host (.write addr n v) :: rest →
      step s =
        (if n ≠ 8 ∨ addr.toNat % 8 ≠ 0 then
          .next { s with events := rest, responses := .busError addr :: s.responses }
        else if s.busy = true then
          .next { s with rej := true, events := rest, responses := .ok :: s.responses }
        else
          match decode v with
          | .illegal _ => .next { s with ill := true, events := rest, responses := .ok :: s.responses }
          | .op i =>
            .next
              { s with
                pendOp := some i, opa := s.a, opb := s.b, uf := false, busy := true, events := rest,
                responses := .ok :: s.responses })

/-- The frame of ADD, SUB and MUL as commands: whenever one answers a next state, A, B, R and ILL, the response list, the
events and the `rst` level are unchanged, every register of the window but STATUS reads as before, a busy block changes
only REJ, and an idle one leaves REJ (R69, R70). The block has no memory: the window is all the host can see (R32). -/
def Obligations.CommandFrame : Prop :=
  ∀ (i : Instr) (s t : State), i = .add ∨ i = .sub ∨ i = .mul → exec i s = .next t →
    t.a = s.a ∧ t.b = s.b ∧ t.r = s.r ∧ t.ill = s.ill ∧ t.rst = s.rst ∧ t.events = s.events ∧
      t.responses = s.responses ∧
      (∀ reg : RegName, reg ≠ .status → readReg reg t = readReg reg s) ∧
      (s.busy = true → t.pendOp = s.pendOp ∧ t.opa = s.opa ∧ t.opb = s.opb ∧ t.busy = s.busy ∧ t.uf = s.uf) ∧
      (s.busy = false → t.rej = s.rej)

/-! ## Completion -/

/-- A completion with BUSY = 1 writes the outcome in one step (R72). With BUSY = 0 it is not enabled (R72): that a
listed completion is then taken off the list with no effect is the model's way of giving it no step, not the spec's words
(notes/assumptions/3.md). -/
def Obligations.CompletionWritesOutcome : Prop :=
  ∀ (s : State) (rest : List Event), s.rst = false → s.events = .completion :: rest →
    (s.busy = false → step s = .next { s with events := rest }) ∧
    (s.busy = true → s.pendOp = some .add →
      step s = .next { s with r := add128 s.opa s.opb, busy := false, pendOp := none, events := rest }) ∧
    (s.busy = true → s.pendOp = some .mul →
      step s = .next { s with r := mul128 s.opa s.opb, busy := false, pendOp := none, events := rest }) ∧
    (s.busy = true → s.pendOp = some .sub →
      (sub128 s.opa s.opb = none →
        step s = .next { s with uf := true, busy := false, pendOp := none, events := rest }) ∧
      (∀ d : Wide, sub128 s.opa s.opb = some d →
        step s = .next { s with r := d, busy := false, pendOp := none, events := rest }))

/-- The frame of a completion, listed or with no event left (notes/assumptions/2.md), of ADD, SUB and MUL alike (R72,
R75): A, B, ILL, REJ, the snapshots, the responses and the `rst` level are unchanged, every register of the window but R
and STATUS reads as before, UF changes only for a SUB, and R keeps both words when UF is set. -/
def Obligations.CompletionFrame : Prop :=
  ∀ s t : State, CompletesCommand s → s.pendOp = some .add ∨ s.pendOp = some .sub ∨ s.pendOp = some .mul →
    step s = .next t →
    t.a = s.a ∧ t.b = s.b ∧ t.ill = s.ill ∧ t.rej = s.rej ∧ t.opa = s.opa ∧ t.opb = s.opb ∧ t.rst = s.rst ∧
      t.events = s.events.tail ∧ t.responses = s.responses ∧
      (∀ reg : RegName, reg ≠ .rLo → reg ≠ .rHi → reg ≠ .status → readReg reg t = readReg reg s) ∧
      (s.pendOp ≠ some .sub → t.uf = s.uf) ∧ (s.uf = false → t.uf = true → t.r = s.r)

/-- R81: the ADD command on an idle block is accepted, and its completion writes the words of the sum with the carry of
the low word, and no flag. -/
def Obligations.AddCommandComputesSum : Prop :=
  ∀ (s : State) (rest : List Event), s.busy = false → s.rst = false →
    encode .add = 0x0000000000000001 ∧
    ∃ (t u : State) (r : Wide), exec .add s = .next t ∧
      t = { s with pendOp := some .add, opa := s.a, opb := s.b, uf := false, busy := true } ∧
      step { t with events := .completion :: rest } = .next u ∧
      u = { t with r := r, busy := false, pendOp := none, events := rest } ∧
      r.lo.toNat = (s.a.lo.toNat + s.b.lo.toNat) % 2 ^ 64 ∧
      r.hi.toNat =
        (s.a.hi.toNat + s.b.hi.toNat + (if s.a.lo.toNat + s.b.lo.toNat > 2 ^ 64 - 1 then 1 else 0)) % 2 ^ 64 ∧
      u.uf = false

/-- R86: the SUB command on an idle block is accepted, and its completion sets UF and leaves R, or writes the words of
the difference, by the four steps in their order. -/
def Obligations.SubCommandComputesDifference : Prop :=
  ∀ (s : State) (rest : List Event), s.busy = false → s.rst = false →
    encode .sub = 0x0000000000000002 ∧
    ∃ (t u : State), exec .sub s = .next t ∧
      t = { s with pendOp := some .sub, opa := s.a, opb := s.b, uf := false, busy := true } ∧
      step { t with events := .completion :: rest } = .next u ∧
      (if s.a.hi.toNat < s.b.hi.toNat ∨ (s.a.hi.toNat = s.b.hi.toNat ∧ s.a.lo.toNat < s.b.lo.toNat) then
        u = { t with uf := true, busy := false, pendOp := none, events := rest }
      else
        ∃ r : Wide, u = { t with r := r, busy := false, pendOp := none, events := rest } ∧ u.uf = false ∧
          (if s.a.lo.toNat < s.b.lo.toNat then
            r.lo.toNat = (2 ^ 64 - s.b.lo.toNat) + s.a.lo.toNat ∧
              1 ≤ s.a.hi.toNat ∧ r.hi.toNat + s.b.hi.toNat = s.a.hi.toNat - 1
          else
            r.lo.toNat + s.b.lo.toNat = s.a.lo.toNat ∧ r.hi.toNat + s.b.hi.toNat = s.a.hi.toNat))

/-- The MUL command on an idle block is accepted, and its completion writes the product modulo 2^128 and no flag
(R69, R72, R93, R97). -/
def Obligations.MulCommandComputesProduct : Prop :=
  ∀ (s : State) (rest : List Event), s.busy = false → s.rst = false →
    encode .mul = 0x0000000000000003 ∧
    ∃ (t u : State) (r : Wide), exec .mul s = .next t ∧
      t = { s with pendOp := some .mul, opa := s.a, opb := s.b, uf := false, busy := true } ∧
      step { t with events := .completion :: rest } = .next u ∧
      u = { t with r := r, busy := false, pendOp := none, events := rest } ∧
      r.val = (s.a.val * s.b.val) % 2 ^ 128 ∧ u.uf = false

/-- Completion always happens unless a reset comes first (R73, R125): within the events listed the block comes to a state
whose next step is the completion of the same command on the same snapshot, R unchanged until then. That the completion
fires when no event is left is the model's form of R73's weak fairness (notes/assumptions/2.md). `Consistent` rules out
BUSY = 1 with nothing pending, of which the spec says nothing (notes/assumptions/8.md). -/
def Obligations.CompletionHappens : Prop :=
  ∀ s : State, Consistent s → s.busy = true → s.rst = false → NoReset s.events →
    ∃ (n : Nat) (t u : State), n ≤ s.events.length ∧ runSteps n s = .next t ∧ CompletesCommand t ∧
      t.pendOp = s.pendOp ∧ t.opa = s.opa ∧ t.opb = s.opb ∧ t.r = s.r ∧ t.uf = s.uf ∧
      step t = .next u ∧ u.busy = false ∧ u.pendOp = none

/-- A pending command outlives any host transactions (R40, R51, R70, R74): they leave BUSY, PEND_OP, the snapshots, R
and UF, so a STATUS read that returns BUSY = 0 comes after the completion. -/
def Obligations.PendingCommandPersists : Prop :=
  ∀ (s : State) (ts : List Transaction) (rest : List Event), s.busy = true → s.rst = false →
    s.events = ts.map Event.host ++ rest →
    ∃ t : State, runSteps ts.length s = .next t ∧ t.events = rest ∧ t.rst = false ∧ t.busy = true ∧
      (readReg .status t).getLsbD 0 = true ∧ t.pendOp = s.pendOp ∧ t.opa = s.opa ∧ t.opb = s.opb ∧ t.r = s.r ∧
      t.uf = s.uf

/-- An accepted command completes with the function of the operands as they stood at its acceptance, whatever
transactions come between (R69, R72, R73, R74, R122). -/
def Obligations.OutcomeAfterAnyTransactions : Prop :=
  ∀ (s : State) (i : Instr) (ts : List Transaction) (rest : List Event), s.busy = false → s.rst = false →
    s.events = .host (.write 0x30 8 (encode i)) :: (ts.map Event.host ++ .completion :: rest) →
    ∃ u : State, runSteps (ts.length + 2) s = .next u ∧ u.events = rest ∧ u.busy = false ∧ u.pendOp = none ∧
      (i = .add → u.r = add128 s.a s.b ∧ u.uf = false) ∧
      (i = .mul → u.r = mul128 s.a s.b ∧ u.uf = false) ∧
      (i = .sub →
        (sub128 s.a s.b = none → u.r = s.r ∧ u.uf = true) ∧
        (∀ d : Wide, sub128 s.a s.b = some d → u.r = d ∧ u.uf = false))

/-- The outcome of a completion depends only on PEND_OP, OPA and OPB (R74, R77): two states that agree on these, whatever
else they hold, complete with the same UF and the same new R, or both leave R. -/
def Obligations.OutcomeDependsOnlyOnSnapshot : Prop :=
  ∀ s s' t t' : State, Consistent s → Consistent s' → CompletesCommand s → CompletesCommand s' →
    s.pendOp = s'.pendOp → s.opa = s'.opa → s.opb = s'.opb → step s = .next t → step s' = .next t' →
    t.uf = t'.uf ∧ (t.uf = false → t.r = t'.r) ∧ (t.uf = true → t.r = s.r ∧ t'.r = s'.r)

/-! ## What may write each register and flag, over every step -/

/-- Only the host and reset write A and B (R16, R17, R75), and a write changes the addressed word only. -/
def Obligations.OperandsWrittenOnlyByHost : Prop :=
  ∀ s t : State, step s = .next t → ¬ResetsNext s →
    (t.a.lo ≠ s.a.lo → WritesNext s 0x00 t.a.lo) ∧ (t.a.hi ≠ s.a.hi → WritesNext s 0x08 t.a.hi) ∧
      (t.b.lo ≠ s.b.lo → WritesNext s 0x10 t.b.lo) ∧ (t.b.hi ≠ s.b.hi → WritesNext s 0x18 t.b.hi)

/-- R is written at exactly three points, and by reset (R18): the completion of an ADD, of a MUL, and of a SUB that does
not underflow. -/
def Obligations.ResultWrittenOnlyAtCompletion : Prop :=
  ∀ s t : State, step s = .next t → ¬ResetsNext s → t.r ≠ s.r →
    CompletesCommand s ∧
      ((s.pendOp = some .add ∧ t.r = add128 s.opa s.opb) ∨ (s.pendOp = some .mul ∧ t.r = mul128 s.opa s.opb) ∨
        (s.pendOp = some .sub ∧ s.opb.val ≤ s.opa.val ∧ sub128 s.opa s.opb = some t.r))

/-- No step writes OPA or OPB but acceptance, which copies A and B, and reset (R29, R69, R75). -/
def Obligations.SnapshotsWrittenOnlyAtAcceptance : Prop :=
  ∀ s t : State, step s = .next t → ¬ResetsNext s → t.opa ≠ s.opa ∨ t.opb ≠ s.opb →
    AcceptsNext s ∧ t.opa = s.a ∧ t.opb = s.b ∧ t.busy = true

/-- R22: what sets BUSY, what clears it, and nothing else; while it is 1 a command is pending. -/
def Obligations.BusyChanges : Prop :=
  ∀ s t : State, Consistent s → step s = .next t →
    (s.busy = true → ∃ i : Instr, s.pendOp = some i) ∧
      (s.busy = false → (t.busy = true ↔ AcceptsNext s)) ∧
      (s.busy = true → (t.busy = false ↔ CompletesCommand s ∨ ResetsNext s))

/-- R23: what sets and clears UF, and nothing else; while BUSY = 1 it reads 0. -/
def Obligations.UnderflowFlagChanges : Prop :=
  ∀ s t : State, Consistent s → step s = .next t →
    (s.busy = true → s.uf = false) ∧ (AcceptsNext s → t.uf = false) ∧ (UnderflowsNext s → t.uf = true) ∧
      (ResetsNext s → t.uf = false) ∧ (¬AcceptsNext s → ¬UnderflowsNext s → ¬ResetsNext s → t.uf = s.uf)

/-- R24: ILL is set by an illegal command write while BUSY = 0 and stays until it is cleared by a 1 in STATUS bit 2 or by
reset. -/
def Obligations.IllegalFlagIsSticky : Prop :=
  ∀ s t : State, step s = .next t →
    (t.ill = true ↔
      (s.ill = true ∧ ¬ResetsNext s ∧ ∀ v : Word, WritesNext s 0x38 v → v.getLsbD 2 = false) ∨
        (s.busy = false ∧ ∃ v : Word, WritesNext s 0x30 v ∧ v ≠ 0x1 ∧ v ≠ 0x2 ∧ v ≠ 0x3))

/-- R25: REJ is set by any command write while BUSY = 1 and stays until it is cleared by a 1 in STATUS bit 3 or by
reset. -/
def Obligations.RejectFlagIsSticky : Prop :=
  ∀ s t : State, step s = .next t →
    (t.rej = true ↔
      (s.rej = true ∧ ¬ResetsNext s ∧ ∀ v : Word, WritesNext s 0x38 v → v.getLsbD 3 = false) ∨
        (s.busy = true ∧ ∃ v : Word, WritesNext s 0x30 v))

/-! ## The register window -/

/-- R39: a legal read returns the value of the register map and changes no state; STATUS is not cleared by it. -/
def Obligations.RegisterReads : Prop :=
  ∀ (s : State) (rest : List Event), s.rst = false →
    ∀ (off : Offset) (v : Word),
      (off = 0x00 ∧ v = s.a.lo) ∨ (off = 0x08 ∧ v = s.a.hi) ∨ (off = 0x10 ∧ v = s.b.lo) ∨
        (off = 0x18 ∧ v = s.b.hi) ∨ (off = 0x20 ∧ v = s.r.lo) ∨ (off = 0x28 ∧ v = s.r.hi) ∨
        (off = 0x30 ∧ v = 0) ∨ (off = 0x38 ∧ v = statusWord s) →
      s.events = .host (.read off 8) :: rest →
      step s = .next { s with events := rest, responses := .data v :: s.responses }

/-- The layout of STATUS (R21): the four flags at bits 0 to 3, bits 63:4 read 0. -/
def Obligations.StatusLayout : Prop :=
  ∀ s : State,
    (statusWord s).getLsbD 0 = s.busy ∧ (statusWord s).getLsbD 1 = s.uf ∧ (statusWord s).getLsbD 2 = s.ill ∧
      (statusWord s).getLsbD 3 = s.rej ∧ ∀ k : Nat, 4 ≤ k → (statusWord s).getLsbD k = false

/-- R26: a write to STATUS clears ILL and REJ where it has a 1, as one step, and does nothing else. -/
def Obligations.StatusWriteClears : Prop :=
  ∀ (s : State) (v : Word) (rest : List Event), s.rst = false → s.events = .host (.write 0x38 8 v) :: rest →
    step s = .next
      { s with
        ill := if v.getLsbD 2 = true then false else s.ill
        rej := if v.getLsbD 3 = true then false else s.rej
        events := rest, responses := .ok :: s.responses }

/-- R40: a write to an operand word stores it, at any time, and does not change the pending command. -/
def Obligations.OperandWrites : Prop :=
  ∀ (s : State) (v : Word) (rest : List Event), s.rst = false →
    (s.events = .host (.write 0x00 8 v) :: rest →
      step s = .next { s with a := { lo := v, hi := s.a.hi }, events := rest, responses := .ok :: s.responses }) ∧
    (s.events = .host (.write 0x08 8 v) :: rest →
      step s = .next { s with a := { lo := s.a.lo, hi := v }, events := rest, responses := .ok :: s.responses }) ∧
    (s.events = .host (.write 0x10 8 v) :: rest →
      step s = .next { s with b := { lo := v, hi := s.b.hi }, events := rest, responses := .ok :: s.responses }) ∧
    (s.events = .host (.write 0x18 8 v) :: rest →
      step s = .next { s with b := { lo := s.b.lo, hi := v }, events := rest, responses := .ok :: s.responses })

/-- R43: writes to the result register return `ok` and change no state. -/
def Obligations.ResultWritesIgnored : Prop :=
  ∀ (s : State) (off : Offset) (v : Word) (rest : List Event), s.rst = false → off = 0x20 ∨ off = 0x28 →
    s.events = .host (.write off 8 v) :: rest →
    step s = .next { s with events := rest, responses := .ok :: s.responses }

/-- R36: a transaction is legal exactly when it is eight bytes at a multiple of 8; any other changes no state and
returns `BusError`, and a legal one does not. -/
def Obligations.IllegalTransactionIsBusError : Prop :=
  ∀ (s : State) (addr : Offset) (n : Nat) (v : Word) (rest : List Event), s.rst = false →
    (n ≠ 8 ∨ addr.toNat % 8 ≠ 0 →
      (s.events = .host (.read addr n) :: rest →
        step s = .next { s with events := rest, responses := .busError addr :: s.responses }) ∧
      (s.events = .host (.write addr n v) :: rest →
        step s = .next { s with events := rest, responses := .busError addr :: s.responses })) ∧
    (n = 8 → addr.toNat % 8 = 0 →
      s.events = .host (.read addr n) :: rest ∨ s.events = .host (.write addr n v) :: rest →
      ∃ (t : State) (x : Response), step s = .next t ∧ t.responses = x :: s.responses ∧
        ∀ e : Offset, x ≠ .busError e)

/-- Writing twice is writing once for every register but CMD, where the second of two identical commands is rejected
(R47). -/
def Obligations.WritesIdempotentButCommand : Prop :=
  ∀ (s : State) (off : Offset) (v : Word) (rest : List Event), s.rst = false → off.toNat % 8 = 0 →
    s.events = .host (.write off 8 v) :: .host (.write off 8 v) :: rest →
    ∃ t u : State, step s = .next t ∧ step t = .next u ∧
      (off ≠ 0x30 → blockOf u = blockOf t) ∧
      (off = 0x30 → s.busy = false → ∀ i : Instr, decode v = .op i →
        t.busy = true ∧ t.rej = s.rej ∧ blockOf u = blockOf { t with rej := true })

/-! ## Values and the three functions -/

/-- R5, with R3 and R4: the ordering by words is the ordering of the numbers, and equality is structural. -/
def Obligations.WideOrdering : Prop :=
  ∀ x y : Wide,
    (wideLess x y = true ↔ x.hi < y.hi ∨ (x.hi = y.hi ∧ x.lo < y.lo)) ∧ (wideLess x y = true ↔ x.val < y.val) ∧
      (x = y ↔ x.lo = y.lo ∧ x.hi = y.hi) ∧ (x = y ↔ x.val = y.val) ∧ x.val < 2 ^ 128

/-- R82: the carry of ADD, its equivalent test, where it goes, and that no state keeps it: the completion of an ADD
changes R, BUSY and PEND_OP alone. -/
def Obligations.AddCarryRule : Prop :=
  (∀ x y : Wide,
    (addCarry x y = 1 ↔ 2 ^ 64 ≤ x.lo.toNat + y.lo.toNat) ∧ (addCarry x y = 1 ↔ x.lo + y.lo < x.lo) ∧
      (addCarry x y = 0 ∨ addCarry x y = 1) ∧ (add128 x y).lo = x.lo + y.lo ∧
      (add128 x y).hi = x.hi + y.hi + BitVec.ofNat 64 (addCarry x y)) ∧
    ∀ (s : State) (rest : List Event), s.busy = true → s.rst = false → s.pendOp = some .add →
      s.events = .completion :: rest →
      step s = .next { s with r := add128 s.opa s.opb, busy := false, pendOp := none, events := rest }

/-- R83: the closed form of ADD. -/
def Obligations.AddClosedForm : Prop :=
  ∀ x y : Wide, (add128 x y).val = (x.val + y.val) % 2 ^ 128

/-- R84: a sum beyond 2^128 wraps, and the completion of an ADD changes no flag but BUSY. -/
def Obligations.AddWrapsSilently : Prop :=
  (∀ x y : Wide, 2 ^ 128 ≤ x.val + y.val → (add128 x y).val + 2 ^ 128 = x.val + y.val) ∧
    ∀ s : State, CompletesCommand s → s.pendOp = some .add →
      ∃ t : State, step s = .next t ∧ t.r = add128 s.opa s.opb ∧ t.uf = s.uf ∧ t.ill = s.ill ∧ t.rej = s.rej ∧
        t.busy = false

/-- R85: the laws of ADD. -/
def Obligations.AddLaws : Prop :=
  (∀ x y : Wide, add128 x y = add128 y x) ∧
    (∀ x y z : Wide, add128 (add128 x y) z = add128 x (add128 y z)) ∧
    (∀ x y : Wide, y.val ≤ x.val → ∃ d : Wide, sub128 x y = some d ∧ add128 d y = x) ∧
    ∀ x : Wide, add128 x { lo := 0, hi := 0 } = x

/-- R87: SUB returns Underflow exactly when the minuend is smaller. -/
def Obligations.SubUnderflowsExactlyWhenLess : Prop :=
  ∀ x y : Wide, sub128 x y = none ↔ x.val < y.val

/-- R88: the borrow step's high word uses the decremented copy, and no completion writes A, B or OPA. -/
def Obligations.SubBorrowsFromTheCopy : Prop :=
  (∀ x y : Wide, x.lo < y.lo → y.hi < x.hi →
      ∃ d : Wide, sub128 x y = some d ∧ d.hi = x.hi - 1 - y.hi ∧ d.lo = x.lo - y.lo) ∧
    ∀ s : State, CompletesCommand s → s.pendOp = some .sub →
      ∃ t : State, step s = .next t ∧ t.a = s.a ∧ t.b = s.b ∧ t.opa = s.opa

/-- R90: the closed form of SUB. -/
def Obligations.SubClosedForm : Prop :=
  ∀ x y : Wide,
    (y.val ≤ x.val → ∃ d : Wide, sub128 x y = some d ∧ d.val = x.val - y.val) ∧
      (x.val < y.val → sub128 x y = none)

/-- R91: SUB never wraps: for a smaller minuend R keeps its value and UF is 1. -/
def Obligations.SubNeverWraps : Prop :=
  ∀ s : State, CompletesCommand s → s.pendOp = some .sub → s.opa.val < s.opb.val →
    step s = .next { s with uf := true, busy := false, pendOp := none, events := s.events.tail }

/-- R92: the laws of SUB. -/
def Obligations.SubLaws : Prop :=
  (∀ x y : Wide, y.val ≤ x.val → ∃ d : Wide, sub128 x y = some d ∧ add128 d y = x) ∧
    (∀ x y : Wide, x.val < y.val → sub128 x y = none) ∧
    (∀ x : Wide, sub128 x x = some { lo := 0, hi := 0 }) ∧
    (∀ x : Wide, sub128 x { lo := 0, hi := 0 } = some x) ∧
    ∀ y : Wide, y ≠ { lo := 0, hi := 0 } → sub128 { lo := 0, hi := 0 } y = none

/-- R94: the word-boundary term of a set bit. -/
def Obligations.MulBoundaryTerm : Prop :=
  ∀ (x : Wide) (i : Nat), i < 64 →
    (boundaryTerm x i).toNat = (x.val * 2 ^ i % 2 ^ 128) / 2 ^ 64 ∧ boundaryTerm x 0 = x.hi ∧
      (0 < i → boundaryTerm x i = (x.hi <<< i) + (x.lo >>> (64 - i)) ∧
        boundaryTerm x i = (x.hi <<< i) ||| (x.lo >>> (64 - i)) ∧
        (x.lo >>> (64 - i)).toNat < 2 ^ i ∧ (∀ j : Nat, j < i → (x.hi <<< i).getLsbD j = false) ∧
        (x.hi <<< i).toNat + (x.lo >>> (64 - i)).toNat < 2 ^ 64)

/-- R96: neither the order of the two loops and of the bits within them, nor the order of the two adds within one bit,
changes the product. -/
def Obligations.MulOrderIrrelevant : Prop :=
  (∀ (x y : Wide) (bits : List (Bool × Nat)),
      bits.Perm (((List.range 64).map (fun i => (false, i))) ++ ((List.range 64).map (fun i => (true, i)))) →
      bits.foldl
        (fun acc p => if p.1 = true then mulHighStep x y acc p.2 else mulLowStep x y acc p.2) { lo := 0, hi := 0 } =
        mul128 x y) ∧
    ∀ (x acc : Wide) (i : Nat),
      addLow x i (addHigh (boundaryTerm x i) acc) = addHigh (boundaryTerm x i) (addLow x i acc)

/-- R97: the closed form of MUL. -/
def Obligations.MulClosedForm : Prop :=
  ∀ x y : Wide, (mul128 x y).val = (x.val * y.val) % 2 ^ 128

/-- R98: a bit of `b.hi` contributes to the high word only, `a.lo << i` of it, and reads nothing of `a.hi`. -/
def Obligations.MulHighBits : Prop :=
  ∀ (x x' y acc : Wide) (i : Nat),
    (mulHighStep x y acc i).lo = acc.lo ∧
      (y.hi.getLsbD i = true → (mulHighStep x y acc i).hi = acc.hi + (x.lo <<< i)) ∧
      (y.hi.getLsbD i = false → mulHighStep x y acc i = acc) ∧
      (x.lo = x'.lo → mulHighStep x y acc i = mulHighStep x' y acc i) ∧
      (i < 64 → x.val * 2 ^ (64 + i) % 2 ^ 128 = (x.lo <<< i).toNat * 2 ^ 64)

/-- R99: the laws of MUL. -/
def Obligations.MulLaws : Prop :=
  (∀ x y : Wide, mul128 x y = mul128 y x) ∧ (∀ x : Wide, mul128 x { lo := 1, hi := 0 } = x) ∧
    (∀ x : Wide, mul128 x { lo := 0, hi := 0 } = { lo := 0, hi := 0 }) ∧
    (∀ x y z : Wide, mul128 x (add128 y z) = add128 (mul128 x y) (mul128 x z)) ∧
    mul128 { lo := 0xFFFFFFFFFFFFFFFF, hi := 0xFFFFFFFFFFFFFFFF }
        { lo := 0xFFFFFFFFFFFFFFFF, hi := 0xFFFFFFFFFFFFFFFF } = { lo := 1, hi := 0 }

/-! ## The machine as a whole -/

/-- Every command after reset with no operand writes computes on zeros (R117). -/
def Obligations.CommandsAfterReset : Prop :=
  ∀ (i : Instr) (rest : List Event),
    ∃ u : State,
      runSteps 2 { State.reset with events := .host (.write 0x30 8 (encode i)) :: .completion :: rest } = .next u ∧
        u.r = { lo := 0, hi := 0 } ∧ u.uf = false ∧ statusWord u = 0 ∧ u.events = rest

/-- No fault and no stuck state; every access and every word has its defined response, and the completion step is
enabled whenever BUSY = 1 (R128). The one refusal is the transaction during reset, which is outside the spec
(notes/assumptions/5.md); that a step with nothing to do answers the same state is the model's choice
(notes/assumptions/3.md and 4.md). -/
def Obligations.MachineNeverStops : Prop :=
  ∀ s : State,
    (s.rst = false → ∃ t : State, step s = .next t) ∧
      (s.busy = true → s.rst = false → completionEnabled s = true) ∧
      (∀ f : Fault, step s ≠ .fault f) ∧
      ∀ x : Refusal, step s = .refused x →
        x = .transactionDuringReset ∧ s.rst = true ∧ ∃ (y : Transaction) (rest : List Event), s.events = .host y :: rest

/-- The block has no step while BUSY = 0 (R76, R112, R116): with nothing from outside the state stays. That the machine's
step then answers the same state is the model's choice (notes/assumptions/4.md). -/
def Obligations.IdleBlockHasNoStep : Prop :=
  ∀ s : State, s.busy = false → s.events = [] → step s = .next s

/-- The external wire format keeps bits 35 to 0 of each word and no more (R55, R56): two values share a buffer exactly
when they agree there. -/
def Obligations.WireFormatKeepsLowBits : Prop :=
  ∀ x y : Wide,
    (wireBytes x = wireBytes y ↔
      (∀ k : Nat, k < 36 → x.lo.getLsbD k = y.lo.getLsbD k ∧ x.hi.getLsbD k = y.hi.getLsbD k)) ∧
      (wireBytes x).length = 16
end

