-- ==== Sys2Proof/Laws/State.lean ====
section
/-! SUPPORT. What each named update of the state does to each field, one lemma per field per update, so that no proof
unfolds a record update. -/

namespace Sys2Proof.Machine

/-- Two states are equal when every field is. -/
theorem state_ext (s t : State) (ha : s.a = t.a) (hb : s.b = t.b) (hr : s.r = t.r) (hbusy : s.busy = t.busy)
    (huf : s.uf = t.uf) (hill : s.ill = t.ill) (hrej : s.rej = t.rej) (hp : s.pendOp = t.pendOp) (hopa : s.opa = t.opa)
    (hopb : s.opb = t.opb) (hrst : s.rst = t.rst) (he : s.events = t.events) (hx : s.responses = t.responses) :
    s = t := by
  cases s
  cases t
  simp only [State.mk.injEq]
  exact ⟨ha, hb, hr, hbusy, huf, hill, hrej, hp, hopa, hopb, hrst, he, hx⟩

@[simp] theorem takeSnapshot_a (s : State) : (takeSnapshot s).a = s.a := rfl
@[simp] theorem takeSnapshot_b (s : State) : (takeSnapshot s).b = s.b := rfl
@[simp] theorem takeSnapshot_r (s : State) : (takeSnapshot s).r = s.r := rfl
@[simp] theorem takeSnapshot_busy (s : State) : (takeSnapshot s).busy = s.busy := rfl
@[simp] theorem takeSnapshot_uf (s : State) : (takeSnapshot s).uf = s.uf := rfl
@[simp] theorem takeSnapshot_ill (s : State) : (takeSnapshot s).ill = s.ill := rfl
@[simp] theorem takeSnapshot_rej (s : State) : (takeSnapshot s).rej = s.rej := rfl
@[simp] theorem takeSnapshot_pendOp (s : State) : (takeSnapshot s).pendOp = s.pendOp := rfl
@[simp] theorem takeSnapshot_opa (s : State) : (takeSnapshot s).opa = s.a := rfl
@[simp] theorem takeSnapshot_opb (s : State) : (takeSnapshot s).opb = s.b := rfl
@[simp] theorem takeSnapshot_rst (s : State) : (takeSnapshot s).rst = s.rst := rfl
@[simp] theorem takeSnapshot_events (s : State) : (takeSnapshot s).events = s.events := rfl
@[simp] theorem takeSnapshot_responses (s : State) : (takeSnapshot s).responses = s.responses := rfl

@[simp] theorem writeStatus_a (v : Word) (s : State) : (writeStatus v s).a = s.a := rfl
@[simp] theorem writeStatus_b (v : Word) (s : State) : (writeStatus v s).b = s.b := rfl
@[simp] theorem writeStatus_r (v : Word) (s : State) : (writeStatus v s).r = s.r := rfl
@[simp] theorem writeStatus_busy (v : Word) (s : State) : (writeStatus v s).busy = s.busy := rfl
@[simp] theorem writeStatus_uf (v : Word) (s : State) : (writeStatus v s).uf = s.uf := rfl
@[simp] theorem writeStatus_ill (v : Word) (s : State) : (writeStatus v s).ill = (s.ill && !v.getLsbD 2) := rfl
@[simp] theorem writeStatus_rej (v : Word) (s : State) : (writeStatus v s).rej = (s.rej && !v.getLsbD 3) := rfl
@[simp] theorem writeStatus_pendOp (v : Word) (s : State) : (writeStatus v s).pendOp = s.pendOp := rfl
@[simp] theorem writeStatus_opa (v : Word) (s : State) : (writeStatus v s).opa = s.opa := rfl
@[simp] theorem writeStatus_opb (v : Word) (s : State) : (writeStatus v s).opb = s.opb := rfl
@[simp] theorem writeStatus_rst (v : Word) (s : State) : (writeStatus v s).rst = s.rst := rfl
@[simp] theorem writeStatus_events (v : Word) (s : State) : (writeStatus v s).events = s.events := rfl
@[simp] theorem writeStatus_responses (v : Word) (s : State) : (writeStatus v s).responses = s.responses := rfl

@[simp] theorem setIll_a (s : State) : (setIll s).a = s.a := rfl
@[simp] theorem setIll_b (s : State) : (setIll s).b = s.b := rfl
@[simp] theorem setIll_r (s : State) : (setIll s).r = s.r := rfl
@[simp] theorem setIll_busy (s : State) : (setIll s).busy = s.busy := rfl
@[simp] theorem setIll_uf (s : State) : (setIll s).uf = s.uf := rfl
@[simp] theorem setIll_ill (s : State) : (setIll s).ill = true := rfl
@[simp] theorem setIll_rej (s : State) : (setIll s).rej = s.rej := rfl
@[simp] theorem setIll_pendOp (s : State) : (setIll s).pendOp = s.pendOp := rfl
@[simp] theorem setIll_opa (s : State) : (setIll s).opa = s.opa := rfl
@[simp] theorem setIll_opb (s : State) : (setIll s).opb = s.opb := rfl
@[simp] theorem setIll_rst (s : State) : (setIll s).rst = s.rst := rfl
@[simp] theorem setIll_events (s : State) : (setIll s).events = s.events := rfl
@[simp] theorem setIll_responses (s : State) : (setIll s).responses = s.responses := rfl

@[simp] theorem setRej_a (s : State) : (setRej s).a = s.a := rfl
@[simp] theorem setRej_b (s : State) : (setRej s).b = s.b := rfl
@[simp] theorem setRej_r (s : State) : (setRej s).r = s.r := rfl
@[simp] theorem setRej_busy (s : State) : (setRej s).busy = s.busy := rfl
@[simp] theorem setRej_uf (s : State) : (setRej s).uf = s.uf := rfl
@[simp] theorem setRej_ill (s : State) : (setRej s).ill = s.ill := rfl
@[simp] theorem setRej_rej (s : State) : (setRej s).rej = true := rfl
@[simp] theorem setRej_pendOp (s : State) : (setRej s).pendOp = s.pendOp := rfl
@[simp] theorem setRej_opa (s : State) : (setRej s).opa = s.opa := rfl
@[simp] theorem setRej_opb (s : State) : (setRej s).opb = s.opb := rfl
@[simp] theorem setRej_rst (s : State) : (setRej s).rst = s.rst := rfl
@[simp] theorem setRej_events (s : State) : (setRej s).events = s.events := rfl
@[simp] theorem setRej_responses (s : State) : (setRej s).responses = s.responses := rfl

@[simp] theorem setUf_a (s : State) : (setUf s).a = s.a := rfl
@[simp] theorem setUf_b (s : State) : (setUf s).b = s.b := rfl
@[simp] theorem setUf_r (s : State) : (setUf s).r = s.r := rfl
@[simp] theorem setUf_busy (s : State) : (setUf s).busy = s.busy := rfl
@[simp] theorem setUf_uf (s : State) : (setUf s).uf = true := rfl
@[simp] theorem setUf_ill (s : State) : (setUf s).ill = s.ill := rfl
@[simp] theorem setUf_rej (s : State) : (setUf s).rej = s.rej := rfl
@[simp] theorem setUf_pendOp (s : State) : (setUf s).pendOp = s.pendOp := rfl
@[simp] theorem setUf_opa (s : State) : (setUf s).opa = s.opa := rfl
@[simp] theorem setUf_opb (s : State) : (setUf s).opb = s.opb := rfl
@[simp] theorem setUf_rst (s : State) : (setUf s).rst = s.rst := rfl
@[simp] theorem setUf_events (s : State) : (setUf s).events = s.events := rfl
@[simp] theorem setUf_responses (s : State) : (setUf s).responses = s.responses := rfl

@[simp] theorem clearUf_a (s : State) : (clearUf s).a = s.a := rfl
@[simp] theorem clearUf_b (s : State) : (clearUf s).b = s.b := rfl
@[simp] theorem clearUf_r (s : State) : (clearUf s).r = s.r := rfl
@[simp] theorem clearUf_busy (s : State) : (clearUf s).busy = s.busy := rfl
@[simp] theorem clearUf_uf (s : State) : (clearUf s).uf = false := rfl
@[simp] theorem clearUf_ill (s : State) : (clearUf s).ill = s.ill := rfl
@[simp] theorem clearUf_rej (s : State) : (clearUf s).rej = s.rej := rfl
@[simp] theorem clearUf_pendOp (s : State) : (clearUf s).pendOp = s.pendOp := rfl
@[simp] theorem clearUf_opa (s : State) : (clearUf s).opa = s.opa := rfl
@[simp] theorem clearUf_opb (s : State) : (clearUf s).opb = s.opb := rfl
@[simp] theorem clearUf_rst (s : State) : (clearUf s).rst = s.rst := rfl
@[simp] theorem clearUf_events (s : State) : (clearUf s).events = s.events := rfl
@[simp] theorem clearUf_responses (s : State) : (clearUf s).responses = s.responses := rfl

@[simp] theorem writeALo_a (v : Word) (s : State) : (writeALo v s).a = { lo := v, hi := s.a.hi } := rfl
@[simp] theorem writeALo_b (v : Word) (s : State) : (writeALo v s).b = s.b := rfl
@[simp] theorem writeALo_r (v : Word) (s : State) : (writeALo v s).r = s.r := rfl
@[simp] theorem writeALo_busy (v : Word) (s : State) : (writeALo v s).busy = s.busy := rfl
@[simp] theorem writeALo_uf (v : Word) (s : State) : (writeALo v s).uf = s.uf := rfl
@[simp] theorem writeALo_ill (v : Word) (s : State) : (writeALo v s).ill = s.ill := rfl
@[simp] theorem writeALo_rej (v : Word) (s : State) : (writeALo v s).rej = s.rej := rfl
@[simp] theorem writeALo_pendOp (v : Word) (s : State) : (writeALo v s).pendOp = s.pendOp := rfl
@[simp] theorem writeALo_opa (v : Word) (s : State) : (writeALo v s).opa = s.opa := rfl
@[simp] theorem writeALo_opb (v : Word) (s : State) : (writeALo v s).opb = s.opb := rfl
@[simp] theorem writeALo_rst (v : Word) (s : State) : (writeALo v s).rst = s.rst := rfl
@[simp] theorem writeALo_events (v : Word) (s : State) : (writeALo v s).events = s.events := rfl
@[simp] theorem writeALo_responses (v : Word) (s : State) : (writeALo v s).responses = s.responses := rfl

@[simp] theorem writeAHi_a (v : Word) (s : State) : (writeAHi v s).a = { lo := s.a.lo, hi := v } := rfl
@[simp] theorem writeAHi_b (v : Word) (s : State) : (writeAHi v s).b = s.b := rfl
@[simp] theorem writeAHi_r (v : Word) (s : State) : (writeAHi v s).r = s.r := rfl
@[simp] theorem writeAHi_busy (v : Word) (s : State) : (writeAHi v s).busy = s.busy := rfl
@[simp] theorem writeAHi_uf (v : Word) (s : State) : (writeAHi v s).uf = s.uf := rfl
@[simp] theorem writeAHi_ill (v : Word) (s : State) : (writeAHi v s).ill = s.ill := rfl
@[simp] theorem writeAHi_rej (v : Word) (s : State) : (writeAHi v s).rej = s.rej := rfl
@[simp] theorem writeAHi_pendOp (v : Word) (s : State) : (writeAHi v s).pendOp = s.pendOp := rfl
@[simp] theorem writeAHi_opa (v : Word) (s : State) : (writeAHi v s).opa = s.opa := rfl
@[simp] theorem writeAHi_opb (v : Word) (s : State) : (writeAHi v s).opb = s.opb := rfl
@[simp] theorem writeAHi_rst (v : Word) (s : State) : (writeAHi v s).rst = s.rst := rfl
@[simp] theorem writeAHi_events (v : Word) (s : State) : (writeAHi v s).events = s.events := rfl
@[simp] theorem writeAHi_responses (v : Word) (s : State) : (writeAHi v s).responses = s.responses := rfl

@[simp] theorem writeBLo_a (v : Word) (s : State) : (writeBLo v s).a = s.a := rfl
@[simp] theorem writeBLo_b (v : Word) (s : State) : (writeBLo v s).b = { lo := v, hi := s.b.hi } := rfl
@[simp] theorem writeBLo_r (v : Word) (s : State) : (writeBLo v s).r = s.r := rfl
@[simp] theorem writeBLo_busy (v : Word) (s : State) : (writeBLo v s).busy = s.busy := rfl
@[simp] theorem writeBLo_uf (v : Word) (s : State) : (writeBLo v s).uf = s.uf := rfl
@[simp] theorem writeBLo_ill (v : Word) (s : State) : (writeBLo v s).ill = s.ill := rfl
@[simp] theorem writeBLo_rej (v : Word) (s : State) : (writeBLo v s).rej = s.rej := rfl
@[simp] theorem writeBLo_pendOp (v : Word) (s : State) : (writeBLo v s).pendOp = s.pendOp := rfl
@[simp] theorem writeBLo_opa (v : Word) (s : State) : (writeBLo v s).opa = s.opa := rfl
@[simp] theorem writeBLo_opb (v : Word) (s : State) : (writeBLo v s).opb = s.opb := rfl
@[simp] theorem writeBLo_rst (v : Word) (s : State) : (writeBLo v s).rst = s.rst := rfl
@[simp] theorem writeBLo_events (v : Word) (s : State) : (writeBLo v s).events = s.events := rfl
@[simp] theorem writeBLo_responses (v : Word) (s : State) : (writeBLo v s).responses = s.responses := rfl

@[simp] theorem writeBHi_a (v : Word) (s : State) : (writeBHi v s).a = s.a := rfl
@[simp] theorem writeBHi_b (v : Word) (s : State) : (writeBHi v s).b = { lo := s.b.lo, hi := v } := rfl
@[simp] theorem writeBHi_r (v : Word) (s : State) : (writeBHi v s).r = s.r := rfl
@[simp] theorem writeBHi_busy (v : Word) (s : State) : (writeBHi v s).busy = s.busy := rfl
@[simp] theorem writeBHi_uf (v : Word) (s : State) : (writeBHi v s).uf = s.uf := rfl
@[simp] theorem writeBHi_ill (v : Word) (s : State) : (writeBHi v s).ill = s.ill := rfl
@[simp] theorem writeBHi_rej (v : Word) (s : State) : (writeBHi v s).rej = s.rej := rfl
@[simp] theorem writeBHi_pendOp (v : Word) (s : State) : (writeBHi v s).pendOp = s.pendOp := rfl
@[simp] theorem writeBHi_opa (v : Word) (s : State) : (writeBHi v s).opa = s.opa := rfl
@[simp] theorem writeBHi_opb (v : Word) (s : State) : (writeBHi v s).opb = s.opb := rfl
@[simp] theorem writeBHi_rst (v : Word) (s : State) : (writeBHi v s).rst = s.rst := rfl
@[simp] theorem writeBHi_events (v : Word) (s : State) : (writeBHi v s).events = s.events := rfl
@[simp] theorem writeBHi_responses (v : Word) (s : State) : (writeBHi v s).responses = s.responses := rfl

@[simp] theorem respond_a (x : Response) (s : State) : (respond x s).a = s.a := rfl
@[simp] theorem respond_b (x : Response) (s : State) : (respond x s).b = s.b := rfl
@[simp] theorem respond_r (x : Response) (s : State) : (respond x s).r = s.r := rfl
@[simp] theorem respond_busy (x : Response) (s : State) : (respond x s).busy = s.busy := rfl
@[simp] theorem respond_uf (x : Response) (s : State) : (respond x s).uf = s.uf := rfl
@[simp] theorem respond_ill (x : Response) (s : State) : (respond x s).ill = s.ill := rfl
@[simp] theorem respond_rej (x : Response) (s : State) : (respond x s).rej = s.rej := rfl
@[simp] theorem respond_pendOp (x : Response) (s : State) : (respond x s).pendOp = s.pendOp := rfl
@[simp] theorem respond_opa (x : Response) (s : State) : (respond x s).opa = s.opa := rfl
@[simp] theorem respond_opb (x : Response) (s : State) : (respond x s).opb = s.opb := rfl
@[simp] theorem respond_rst (x : Response) (s : State) : (respond x s).rst = s.rst := rfl
@[simp] theorem respond_events (x : Response) (s : State) : (respond x s).events = s.events := rfl
@[simp] theorem respond_responses (x : Response) (s : State) : (respond x s).responses = x :: s.responses := rfl

@[simp] theorem acceptCommand_a (i : Instr) (s : State) : (acceptCommand i s).a = s.a := rfl
@[simp] theorem acceptCommand_b (i : Instr) (s : State) : (acceptCommand i s).b = s.b := rfl
@[simp] theorem acceptCommand_r (i : Instr) (s : State) : (acceptCommand i s).r = s.r := rfl
@[simp] theorem acceptCommand_busy (i : Instr) (s : State) : (acceptCommand i s).busy = true := rfl
@[simp] theorem acceptCommand_uf (i : Instr) (s : State) : (acceptCommand i s).uf = false := rfl
@[simp] theorem acceptCommand_ill (i : Instr) (s : State) : (acceptCommand i s).ill = s.ill := rfl
@[simp] theorem acceptCommand_rej (i : Instr) (s : State) : (acceptCommand i s).rej = s.rej := rfl
@[simp] theorem acceptCommand_pendOp (i : Instr) (s : State) : (acceptCommand i s).pendOp = some i := rfl
@[simp] theorem acceptCommand_opa (i : Instr) (s : State) : (acceptCommand i s).opa = s.a := rfl
@[simp] theorem acceptCommand_opb (i : Instr) (s : State) : (acceptCommand i s).opb = s.b := rfl
@[simp] theorem acceptCommand_rst (i : Instr) (s : State) : (acceptCommand i s).rst = s.rst := rfl
@[simp] theorem acceptCommand_events (i : Instr) (s : State) : (acceptCommand i s).events = s.events := rfl
@[simp] theorem acceptCommand_responses (i : Instr) (s : State) : (acceptCommand i s).responses = s.responses := rfl

@[simp] theorem rejectCommand_a (s : State) : (rejectCommand s).a = s.a := rfl
@[simp] theorem rejectCommand_b (s : State) : (rejectCommand s).b = s.b := rfl
@[simp] theorem rejectCommand_r (s : State) : (rejectCommand s).r = s.r := rfl
@[simp] theorem rejectCommand_busy (s : State) : (rejectCommand s).busy = s.busy := rfl
@[simp] theorem rejectCommand_uf (s : State) : (rejectCommand s).uf = s.uf := rfl
@[simp] theorem rejectCommand_ill (s : State) : (rejectCommand s).ill = s.ill := rfl
@[simp] theorem rejectCommand_rej (s : State) : (rejectCommand s).rej = true := rfl
@[simp] theorem rejectCommand_pendOp (s : State) : (rejectCommand s).pendOp = s.pendOp := rfl
@[simp] theorem rejectCommand_opa (s : State) : (rejectCommand s).opa = s.opa := rfl
@[simp] theorem rejectCommand_opb (s : State) : (rejectCommand s).opb = s.opb := rfl
@[simp] theorem rejectCommand_rst (s : State) : (rejectCommand s).rst = s.rst := rfl
@[simp] theorem rejectCommand_events (s : State) : (rejectCommand s).events = s.events := rfl
@[simp] theorem rejectCommand_responses (s : State) : (rejectCommand s).responses = s.responses := rfl

@[simp] theorem publishResult_a (d : Wide) (s : State) : (publishResult d s).a = s.a := rfl
@[simp] theorem publishResult_b (d : Wide) (s : State) : (publishResult d s).b = s.b := rfl
@[simp] theorem publishResult_r (d : Wide) (s : State) : (publishResult d s).r = d := rfl
@[simp] theorem publishResult_busy (d : Wide) (s : State) : (publishResult d s).busy = s.busy := rfl
@[simp] theorem publishResult_uf (d : Wide) (s : State) : (publishResult d s).uf = s.uf := rfl
@[simp] theorem publishResult_ill (d : Wide) (s : State) : (publishResult d s).ill = s.ill := rfl
@[simp] theorem publishResult_rej (d : Wide) (s : State) : (publishResult d s).rej = s.rej := rfl
@[simp] theorem publishResult_pendOp (d : Wide) (s : State) : (publishResult d s).pendOp = s.pendOp := rfl
@[simp] theorem publishResult_opa (d : Wide) (s : State) : (publishResult d s).opa = s.opa := rfl
@[simp] theorem publishResult_opb (d : Wide) (s : State) : (publishResult d s).opb = s.opb := rfl
@[simp] theorem publishResult_rst (d : Wide) (s : State) : (publishResult d s).rst = s.rst := rfl
@[simp] theorem publishResult_events (d : Wide) (s : State) : (publishResult d s).events = s.events := rfl
@[simp] theorem publishResult_responses (d : Wide) (s : State) : (publishResult d s).responses = s.responses := rfl

@[simp] theorem retireCommand_a (s : State) : (retireCommand s).a = s.a := rfl
@[simp] theorem retireCommand_b (s : State) : (retireCommand s).b = s.b := rfl
@[simp] theorem retireCommand_r (s : State) : (retireCommand s).r = s.r := rfl
@[simp] theorem retireCommand_busy (s : State) : (retireCommand s).busy = false := rfl
@[simp] theorem retireCommand_uf (s : State) : (retireCommand s).uf = s.uf := rfl
@[simp] theorem retireCommand_ill (s : State) : (retireCommand s).ill = s.ill := rfl
@[simp] theorem retireCommand_rej (s : State) : (retireCommand s).rej = s.rej := rfl
@[simp] theorem retireCommand_pendOp (s : State) : (retireCommand s).pendOp = none := rfl
@[simp] theorem retireCommand_opa (s : State) : (retireCommand s).opa = s.opa := rfl
@[simp] theorem retireCommand_opb (s : State) : (retireCommand s).opb = s.opb := rfl
@[simp] theorem retireCommand_rst (s : State) : (retireCommand s).rst = s.rst := rfl
@[simp] theorem retireCommand_events (s : State) : (retireCommand s).events = s.events := rfl
@[simp] theorem retireCommand_responses (s : State) : (retireCommand s).responses = s.responses := rfl

@[simp] theorem assertReset_a (s : State) : (assertReset s).a = Wide.zero := rfl
@[simp] theorem assertReset_b (s : State) : (assertReset s).b = Wide.zero := rfl
@[simp] theorem assertReset_r (s : State) : (assertReset s).r = Wide.zero := rfl
@[simp] theorem assertReset_busy (s : State) : (assertReset s).busy = false := rfl
@[simp] theorem assertReset_uf (s : State) : (assertReset s).uf = false := rfl
@[simp] theorem assertReset_ill (s : State) : (assertReset s).ill = false := rfl
@[simp] theorem assertReset_rej (s : State) : (assertReset s).rej = false := rfl
@[simp] theorem assertReset_pendOp (s : State) : (assertReset s).pendOp = none := rfl
@[simp] theorem assertReset_opa (s : State) : (assertReset s).opa = Wide.zero := rfl
@[simp] theorem assertReset_opb (s : State) : (assertReset s).opb = Wide.zero := rfl
@[simp] theorem assertReset_rst (s : State) : (assertReset s).rst = true := rfl
@[simp] theorem assertReset_events (s : State) : (assertReset s).events = s.events := rfl
@[simp] theorem assertReset_responses (s : State) : (assertReset s).responses = s.responses := rfl

@[simp] theorem releaseReset_a (s : State) : (releaseReset s).a = s.a := rfl
@[simp] theorem releaseReset_b (s : State) : (releaseReset s).b = s.b := rfl
@[simp] theorem releaseReset_r (s : State) : (releaseReset s).r = s.r := rfl
@[simp] theorem releaseReset_busy (s : State) : (releaseReset s).busy = s.busy := rfl
@[simp] theorem releaseReset_uf (s : State) : (releaseReset s).uf = s.uf := rfl
@[simp] theorem releaseReset_ill (s : State) : (releaseReset s).ill = s.ill := rfl
@[simp] theorem releaseReset_rej (s : State) : (releaseReset s).rej = s.rej := rfl
@[simp] theorem releaseReset_pendOp (s : State) : (releaseReset s).pendOp = s.pendOp := rfl
@[simp] theorem releaseReset_opa (s : State) : (releaseReset s).opa = s.opa := rfl
@[simp] theorem releaseReset_opb (s : State) : (releaseReset s).opb = s.opb := rfl
@[simp] theorem releaseReset_rst (s : State) : (releaseReset s).rst = false := rfl
@[simp] theorem releaseReset_events (s : State) : (releaseReset s).events = s.events := rfl
@[simp] theorem releaseReset_responses (s : State) : (releaseReset s).responses = s.responses := rfl

@[simp] theorem takeEvents_a (rest : List Event) (s : State) : (takeEvents rest s).a = s.a := rfl
@[simp] theorem takeEvents_b (rest : List Event) (s : State) : (takeEvents rest s).b = s.b := rfl
@[simp] theorem takeEvents_r (rest : List Event) (s : State) : (takeEvents rest s).r = s.r := rfl
@[simp] theorem takeEvents_busy (rest : List Event) (s : State) : (takeEvents rest s).busy = s.busy := rfl
@[simp] theorem takeEvents_uf (rest : List Event) (s : State) : (takeEvents rest s).uf = s.uf := rfl
@[simp] theorem takeEvents_ill (rest : List Event) (s : State) : (takeEvents rest s).ill = s.ill := rfl
@[simp] theorem takeEvents_rej (rest : List Event) (s : State) : (takeEvents rest s).rej = s.rej := rfl
@[simp] theorem takeEvents_pendOp (rest : List Event) (s : State) : (takeEvents rest s).pendOp = s.pendOp := rfl
@[simp] theorem takeEvents_opa (rest : List Event) (s : State) : (takeEvents rest s).opa = s.opa := rfl
@[simp] theorem takeEvents_opb (rest : List Event) (s : State) : (takeEvents rest s).opb = s.opb := rfl
@[simp] theorem takeEvents_rst (rest : List Event) (s : State) : (takeEvents rest s).rst = s.rst := rfl
@[simp] theorem takeEvents_events (rest : List Event) (s : State) : (takeEvents rest s).events = rest := rfl
@[simp] theorem takeEvents_responses (rest : List Event) (s : State) : (takeEvents rest s).responses = s.responses := rfl

@[simp] theorem placeCommand_a (w : Word) (s : State) : (placeCommand w s).a = s.a := rfl
@[simp] theorem placeCommand_b (w : Word) (s : State) : (placeCommand w s).b = s.b := rfl
@[simp] theorem placeCommand_r (w : Word) (s : State) : (placeCommand w s).r = s.r := rfl
@[simp] theorem placeCommand_busy (w : Word) (s : State) : (placeCommand w s).busy = s.busy := rfl
@[simp] theorem placeCommand_uf (w : Word) (s : State) : (placeCommand w s).uf = s.uf := rfl
@[simp] theorem placeCommand_ill (w : Word) (s : State) : (placeCommand w s).ill = s.ill := rfl
@[simp] theorem placeCommand_rej (w : Word) (s : State) : (placeCommand w s).rej = s.rej := rfl
@[simp] theorem placeCommand_pendOp (w : Word) (s : State) : (placeCommand w s).pendOp = s.pendOp := rfl
@[simp] theorem placeCommand_opa (w : Word) (s : State) : (placeCommand w s).opa = s.opa := rfl
@[simp] theorem placeCommand_opb (w : Word) (s : State) : (placeCommand w s).opb = s.opb := rfl
@[simp] theorem placeCommand_rst (w : Word) (s : State) : (placeCommand w s).rst = false := rfl
@[simp] theorem placeCommand_events (w : Word) (s : State) : (placeCommand w s).events = .host (.write 0x30 8 w) :: s.events := rfl
@[simp] theorem placeCommand_responses (w : Word) (s : State) : (placeCommand w s).responses = s.responses := rfl

@[simp] theorem blockOf_a (s : State) : (blockOf s).a = s.a := rfl
@[simp] theorem blockOf_b (s : State) : (blockOf s).b = s.b := rfl
@[simp] theorem blockOf_r (s : State) : (blockOf s).r = s.r := rfl
@[simp] theorem blockOf_busy (s : State) : (blockOf s).busy = s.busy := rfl
@[simp] theorem blockOf_uf (s : State) : (blockOf s).uf = s.uf := rfl
@[simp] theorem blockOf_ill (s : State) : (blockOf s).ill = s.ill := rfl
@[simp] theorem blockOf_rej (s : State) : (blockOf s).rej = s.rej := rfl
@[simp] theorem blockOf_pendOp (s : State) : (blockOf s).pendOp = s.pendOp := rfl
@[simp] theorem blockOf_opa (s : State) : (blockOf s).opa = s.opa := rfl
@[simp] theorem blockOf_opb (s : State) : (blockOf s).opb = s.opb := rfl
@[simp] theorem blockOf_rst (s : State) : (blockOf s).rst = false := rfl
@[simp] theorem blockOf_events (s : State) : (blockOf s).events = [] := rfl
@[simp] theorem blockOf_responses (s : State) : (blockOf s).responses = [] := rfl

@[simp] theorem reset_a : State.reset.a = Wide.zero := rfl
@[simp] theorem reset_b : State.reset.b = Wide.zero := rfl
@[simp] theorem reset_r : State.reset.r = Wide.zero := rfl
@[simp] theorem reset_busy : State.reset.busy = false := rfl
@[simp] theorem reset_uf : State.reset.uf = false := rfl
@[simp] theorem reset_ill : State.reset.ill = false := rfl
@[simp] theorem reset_rej : State.reset.rej = false := rfl
@[simp] theorem reset_pendOp : State.reset.pendOp = none := rfl
@[simp] theorem reset_opa : State.reset.opa = Wide.zero := rfl
@[simp] theorem reset_opb : State.reset.opb = Wide.zero := rfl
@[simp] theorem reset_rst : State.reset.rst = false := rfl
@[simp] theorem reset_events : State.reset.events = [] := rfl
@[simp] theorem reset_responses : State.reset.responses = [] := rfl

end Sys2Proof.Machine
end

