-- ==== Sys2Proof/Laws/Ops.lean ====
section
/-! SUPPORT. What each shared operation can do, said once: the register window, the command request, a transaction, an
event, a step. -/

namespace Sys2Proof.Machine

/-- R36 as numbers: eight bytes at a multiple of 8. -/
theorem legalAccess_iff (addr : Offset) (n : Nat) : legalAccess addr n = true ↔ n = 8 ∧ addr.toNat % 8 = 0 := by
  have h : ∀ x : Offset, x.extractLsb' 0 3 = 0 ↔ x.toNat % 8 = 0 := by decide
  simp only [legalAccess, Bool.and_eq_true, decide_eq_true_eq, h addr]

/-- Each register stands at its own offset (R38). -/
theorem regAt_offsetOf (reg : RegName) : regAt (offsetOf reg) = reg := by cases reg <;> decide

/-- Every register's offset is a legal place for eight bytes. -/
theorem legalAccess_offsetOf (reg : RegName) : legalAccess (offsetOf reg) 8 = true := by cases reg <;> decide

/-- The eight registers fill the window: an aligned offset is some register's (R38). -/
theorem offsetOf_regAt (addr : Offset) (h : addr.toNat % 8 = 0) : offsetOf (regAt addr) = addr := by
  revert h
  revert addr
  decide

theorem exec_eq_requestCommand (i : Instr) (s : State) : exec i s = .next (requestCommand i s) := by
  cases i <;> rfl

theorem requestCommand_of_busy (i : Instr) (s : State) (h : s.busy = true) :
    requestCommand i s = rejectCommand s := by simp [requestCommand, h]

theorem requestCommand_of_not_busy (i : Instr) (s : State) (h : s.busy = false) :
    requestCommand i s = acceptCommand i s := by simp [requestCommand, h]

/-- Everything a legal command word can do: rejected while busy, accepted otherwise. -/
theorem requestCommand_cases (i : Instr) (s : State) :
    (s.busy = true ∧ requestCommand i s = rejectCommand s) ∨
      (s.busy = false ∧ requestCommand i s = acceptCommand i s) := by
  cases h : s.busy
  · exact .inr ⟨rfl, requestCommand_of_not_busy i s h⟩
  · exact .inl ⟨rfl, requestCommand_of_busy i s h⟩

theorem requestIllegal_of_busy (s : State) (h : s.busy = true) : requestIllegal s = rejectCommand s := by
  simp [requestIllegal, h]

theorem requestIllegal_of_not_busy (s : State) (h : s.busy = false) : requestIllegal s = setIll s := by
  simp [requestIllegal, h]

/-- What a word written to CMD does to the state, before the response. -/
def commandEffect (w : Word) (s : State) : State :=
  match decode w with
  | .op i => requestCommand i s
  | .illegal _ => requestIllegal s

/-- What a legal write of a register does to the state, before the response. -/
def writeEffect (reg : RegName) (v : Word) (s : State) : State :=
  match reg with
  | .aLo => writeALo v s
  | .aHi => writeAHi v s
  | .bLo => writeBLo v s
  | .bHi => writeBHi v s
  | .rLo => s
  | .rHi => s
  | .cmd => commandEffect v s
  | .status => writeStatus v s

theorem writeCmd_eq (w : Word) (s : State) : writeCmd w s = .next (respond .ok (commandEffect w s)) := by
  unfold writeCmd commandEffect
  cases decode w with
  | op i => simp [exec_eq_requestCommand, respondAfter]
  | illegal x => rfl

/-- Every legal write answers `ok` and a next state. -/
theorem writeReg_eq (reg : RegName) (v : Word) (s : State) :
    writeReg reg v s = .next (respond .ok (writeEffect reg v s)) := by
  cases reg <;> first | exact writeCmd_eq v s | rfl

/-- What a transaction answers and does: everything about `transact` in one equation. -/
def transactResult (t : Transaction) (s : State) : State :=
  match t with
  | .read addr n =>
    if legalAccess addr n then respond (.data (readReg (regAt addr) s)) s else respond (.busError addr) s
  | .write addr n v =>
    if legalAccess addr n then respond .ok (writeEffect (regAt addr) v s) else respond (.busError addr) s

theorem transact_eq (t : Transaction) (s : State) : transact t s = .next (transactResult t s) := by
  cases t with
  | read addr n =>
    simp only [transact, transactResult]
    split <;> rfl
  | write addr n v =>
    simp only [transact, transactResult]
    split
    · exact writeReg_eq _ v s
    · rfl

theorem completeIfEnabled_of_enabled (s : State) (hb : s.busy = true) (hr : s.rst = false) :
    completeIfEnabled s = complete s := by simp [completeIfEnabled, completionEnabled, hb, hr]

theorem completeIfEnabled_of_not_busy (s : State) (hb : s.busy = false) : completeIfEnabled s = s := by
  simp [completeIfEnabled, completionEnabled, hb]

theorem completeIfEnabled_of_reset (s : State) (hr : s.rst = true) : completeIfEnabled s = s := by
  simp [completeIfEnabled, completionEnabled, hr]

theorem step_nil (s : State) (h : s.events = []) : step s = .next (completeIfEnabled s) := by
  simp [step, h]

theorem step_host (s : State) (t : Transaction) (rest : List Event) (h : s.events = .host t :: rest)
    (hr : s.rst = false) : step s = .next (transactResult t (takeEvents rest s)) := by
  simp [step, h, runEvent, hr, transact_eq]

theorem step_host_in_reset (s : State) (t : Transaction) (rest : List Event) (h : s.events = .host t :: rest)
    (hr : s.rst = true) : step s = .refused .transactionDuringReset := by
  simp [step, h, runEvent, hr]

theorem step_completion (s : State) (rest : List Event) (h : s.events = .completion :: rest) :
    step s = .next (completeIfEnabled (takeEvents rest s)) := by
  simp [step, h, runEvent]

theorem step_rst_true (s : State) (rest : List Event) (h : s.events = .rst true :: rest) :
    step s = .next (assertReset (takeEvents rest s)) := by
  simp [step, h, runEvent]

theorem step_rst_false (s : State) (rest : List Event) (h : s.events = .rst false :: rest) :
    step s = .next (releaseReset (takeEvents rest s)) := by
  simp [step, h, runEvent]

/-- Everything a step that answers a next state can have done. -/
theorem step_cases (s t : State) (h : step s = .next t) :
    (s.events = [] ∧ t = completeIfEnabled s) ∨
      ∃ rest,
        (∃ x, s.events = .host x :: rest ∧ s.rst = false ∧ t = transactResult x (takeEvents rest s)) ∨
          (s.events = .completion :: rest ∧ t = completeIfEnabled (takeEvents rest s)) ∨
          (s.events = .rst true :: rest ∧ t = assertReset (takeEvents rest s)) ∨
          (s.events = .rst false :: rest ∧ t = releaseReset (takeEvents rest s)) := by
  match he : s.events with
  | [] =>
    rw [step_nil s he] at h
    cases h
    exact .inl ⟨rfl, rfl⟩
  | .host x :: rest =>
    cases hr : s.rst
    · rw [step_host s x rest he hr] at h
      cases h
      exact .inr ⟨rest, .inl ⟨x, rfl, rfl, rfl⟩⟩
    · rw [step_host_in_reset s x rest he hr] at h
      cases h
  | .completion :: rest =>
    rw [step_completion s rest he] at h
    cases h
    exact .inr ⟨rest, .inr (.inl ⟨rfl, rfl⟩)⟩
  | .rst true :: rest =>
    rw [step_rst_true s rest he] at h
    cases h
    exact .inr ⟨rest, .inr (.inr (.inl ⟨rfl, rfl⟩))⟩
  | .rst false :: rest =>
    rw [step_rst_false s rest he] at h
    cases h
    exact .inr ⟨rest, .inr (.inr (.inr ⟨rfl, rfl⟩))⟩

/-- A completion in its four cases (R72). -/
theorem complete_cases (s : State) :
    (s.pendOp = some .add ∧ complete s = retireCommand (publishResult (add128 s.opa s.opb) s)) ∨
      (s.pendOp = some .mul ∧ complete s = retireCommand (publishResult (mul128 s.opa s.opb) s)) ∨
      (s.pendOp = some .sub ∧ ∃ d, sub128 s.opa s.opb = some d ∧ complete s = retireCommand (publishResult d s)) ∨
      (s.pendOp = some .sub ∧ sub128 s.opa s.opb = none ∧ complete s = retireCommand (setUf s)) ∨
      (s.pendOp = none ∧ complete s = retireCommand s) := by
  match hp : s.pendOp with
  | some .add => exact .inl ⟨rfl, by simp [complete, hp, completeAdd]⟩
  | some .mul => exact .inr (.inl ⟨rfl, by simp [complete, hp, completeMul]⟩)
  | some .sub =>
    cases hd : sub128 s.opa s.opb with
    | some d => exact .inr (.inr (.inl ⟨rfl, d, rfl, by simp [complete, hp, completeSub, hd]⟩))
    | none => exact .inr (.inr (.inr (.inl ⟨rfl, rfl, by simp [complete, hp, completeSub, hd]⟩)))
  | none => exact .inr (.inr (.inr (.inr ⟨rfl, by simp [complete, hp]⟩)))

/-- The fields no completion touches (R72). -/
theorem complete_frame (s : State) :
    (complete s).a = s.a ∧ (complete s).b = s.b ∧ (complete s).ill = s.ill ∧ (complete s).rej = s.rej ∧
      (complete s).opa = s.opa ∧ (complete s).opb = s.opb ∧ (complete s).rst = s.rst ∧
      (complete s).events = s.events ∧ (complete s).responses = s.responses ∧
      (complete s).busy = false ∧ (complete s).pendOp = none := by
  obtain ⟨-, h⟩ | ⟨-, h⟩ | ⟨-, d, -, h⟩ | ⟨-, -, h⟩ | ⟨-, h⟩ := complete_cases s <;> simp [h]

/-- The three one-bit-at-a-time cases of `decode` (R62). -/
theorem decode_cases (w : Word) :
    (w = 0x1 ∧ decode w = .op .add) ∨ (w = 0x2 ∧ decode w = .op .sub) ∨ (w = 0x3 ∧ decode w = .op .mul) ∨
      (w ≠ 0x1 ∧ w ≠ 0x2 ∧ w ≠ 0x3 ∧ decode w = .illegal w) := by
  unfold decode
  split
  · exact .inl ⟨‹_›, rfl⟩
  · split
    · exact .inr (.inl ⟨‹_›, rfl⟩)
    · split
      · exact .inr (.inr (.inl ⟨‹_›, rfl⟩))
      · exact .inr (.inr (.inr ⟨‹_›, ‹_›, ‹_›, rfl⟩))

/-- The words of a sum, as numbers (R81). -/
theorem add128_lo_toNat (x y : Wide) : (add128 x y).lo.toNat = (x.lo.toNat + y.lo.toNat) % 2 ^ 64 := by
  simp [add128]

theorem add128_hi_toNat (x y : Wide) :
    (add128 x y).hi.toNat = (x.hi.toNat + y.hi.toNat + addCarry x y) % 2 ^ 64 := by
  simp [add128]

end Sys2Proof.Machine
end

