-- ==== Sys2Proof/Laws/PerInstr.lean ====
section
/-! SUPPORT. A statement about every command as a piece of syntax, one lemma per constructor. -/

namespace Sys2Proof.Laws.Encoding

/-- The word of a command is well formed field by field, is the row of the opcode table that matches it, and decodes to
the command, as a word and from its bytes (R57, R60, R62). -/
def Statement (i : Instr) : Prop :=
  i.wellFormed = true ∧ (commandFields (encode i)).wellFormed = true ∧ encode i &&& maskOf i = matchOf i ∧
    decode (encode i) = .op i ∧ decodeBytes (encodeBytes i) = some (.op i)

theorem add : Statement .add := by unfold Statement; decide

theorem sub : Statement .sub := by unfold Statement; decide

theorem mul : Statement .mul := by unfold Statement; decide

end Sys2Proof.Laws.Encoding
end

