-- ==== Sys2Proof/Machine/Asm.lean ====
section
/-! DEFINITION. The host-side notation of 30_encoding (R64 to R68): mnemonics, the lines of a host program and the
expansion of the pseudo-instructions, as the events they stand for. It adds no behaviour to the block (92 D23); the
machine never calls it. notes/assumptions/15.md. -/

namespace Sys2Proof.Machine

/-- The mnemonic of a command (R64). -/
def mnemonicOf : Instr → String
  | .add => "ADD"
  | .sub => "SUB"
  | .mul => "MUL"

/-- The command a mnemonic names, upper case only (R64). -/
def parseMnemonic (t : String) : Option Instr :=
  if t = "ADD" then some .add
  else if t = "SUB" then some .sub
  else if t = "MUL" then some .mul
  else none

/-- How a decoded word is written: its mnemonic, or `ILLEGAL(w)` with the word in decimal (R64, R65). -/
def printCommand : Command → String
  | .op i => mnemonicOf i
  | .illegal w => "ILLEGAL(" ++ toString w.toNat ++ ")"

/-- The transaction of one line of a host program (R65). -/
def lineTransaction : HostLine → Transaction
  | .wr name v => .write (offsetOf name) 8 v
  | .wrCmd i => .write 0x30 8 (encode i)
  | .rd name => .read (offsetOf name) 8

/-- A list of lines as events. -/
def lineEvents (ls : List HostLine) : List Event := ls.map (fun l => .host (lineTransaction l))

/-- A `wait` under the schedule being shown (R66, R67): the STATUS reads that see BUSY = 1, the completion, and the read
that sees BUSY = 0. -/
def waitEvents (polls : Nat) : List Event :=
  lineEvents (List.replicate polls (.rd .status)) ++ .completion :: lineEvents [.rd .status]

/-- The exact expansion of each pseudo-instruction (R66). -/
def expand : Pseudo → List Event
  | .lda lo hi => lineEvents [.wr .aLo lo, .wr .aHi hi]
  | .ldb lo hi => lineEvents [.wr .bLo lo, .wr .bHi hi]
  | .go i => lineEvents [.wrCmd i]
  | .wait polls => waitEvents polls
  | .exec i polls => lineEvents [.wrCmd i] ++ waitEvents polls
  | .getr => lineEvents [.rd .rLo, .rd .rHi]
  | .clrerr => lineEvents [.wr .status 0xC]

/-- The source's call of an operation as the block performs it: operands, command, wait, result (R68). -/
def callEvents (i : Instr) (x y : Wide) (polls : Nat) : List Event :=
  expand (.lda x.lo x.hi) ++ expand (.ldb y.lo y.hi) ++ expand (.exec i polls) ++ expand .getr

end Sys2Proof.Machine
end

