-- ==== Sys2Proof/Tests/Slice0.lean ====
section
/-! SUPPORT. Tests of one step each, expected results taken from spec/ (95_test_vectors unless said otherwise), and for
every statement with hypotheses a named witness that meets them. -/

namespace Sys2Proof.Tests

open Sys2Proof Sys2Proof.Machine

/-! ## Helpers -/

/-- The reset state with events to come. -/
def atEvents (es : List Event) : State := { State.reset with events := es }

/-- A legal write and a legal read as events. -/
def w8 (off : Offset) (v : Word) : Event := .host (.write off 8 v)

def r8 (off : Offset) : Event := .host (.read off 8)

/-- Operands in A and B, nothing pending. -/
def loaded (x y : Wide) (es : List Event) : State := { State.reset with a := x, b := y, events := es }

/-- A pending command on a snapshot. -/
def pendingOn (i : Instr) (x y : Wide) (es : List Event) : State :=
  { State.reset with busy := true, pendOp := some i, opa := x, opb := y, events := es }

/-- `rst` asserted. -/
def inReset (es : List Event) : State := { State.reset with rst := true, events := es }

/-- The next state, or the reset state where there is none. -/
def after (o : Host.Outcome State Fault Refusal) : State :=
  match o with
  | .next s => s
  | .fault _ => State.reset
  | .refused _ => State.reset

def answersNext (o : Host.Outcome State Fault Refusal) : Bool :=
  match o with
  | .next _ => true
  | .fault _ => false
  | .refused _ => false

def wmax : Word := 0xFFFFFFFFFFFFFFFF

/-! ## Well-formedness: an ill-formed term for each check -/

theorem test_wellFormed_accepts : (CommandWord.mk 0x01 0).wellFormed = true := by decide

theorem test_wellFormed_refuses_reserved : (CommandWord.mk 0x01 1).reservedZero = false := by decide

theorem test_wellFormed_refuses_op : (CommandWord.mk 0x04 0).opAssigned = false := by decide

/-! ## Decoding (table 2.4; the word of each command bit by bit from R57 and R60: OP in bits 7:0, RES0 in bits 63:8) -/

theorem test_decode_add : decode ((0 : BitVec 56) ++ (0b00000001 : BitVec 8)) = .op .add := by decide

theorem test_decode_sub : decode ((0 : BitVec 56) ++ (0b00000010 : BitVec 8)) = .op .sub := by decide

theorem test_decode_mul : decode ((0 : BitVec 56) ++ (0b00000011 : BitVec 8)) = .op .mul := by decide

theorem test_decode_zero : decode 0 = .illegal 0 := by decide

theorem test_decode_reserved_bit : decode 0x101 = .illegal 0x101 := by decide

theorem test_decode_top_bit : decode 0x8000000000000003 = .illegal 0x8000000000000003 := by decide

theorem test_decodeTableWord :
    decodeTableWord 64 1 = some .add ∧ decodeTableWord 64 2 = some .sub ∧ decodeTableWord 64 3 = some .mul ∧
      decodeTableWord 64 4 = none := by decide

theorem test_decodeBytes_length : decodeBytes [1, 0, 0, 0] = none := by decide

/-! ## The three functions, on the spec's vectors -/

/-- A1 to A10. -/
theorem test_add_vectors :
    add128 ⟨0, 0⟩ ⟨0, 0⟩ = ⟨0, 0⟩ ∧ add128 ⟨1, 0⟩ ⟨2, 0⟩ = ⟨3, 0⟩ ∧ add128 ⟨wmax, 0⟩ ⟨1, 0⟩ = ⟨0, 1⟩ ∧
      add128 ⟨wmax, wmax⟩ ⟨1, 0⟩ = ⟨0, 0⟩ ∧ add128 ⟨wmax, wmax⟩ ⟨wmax, wmax⟩ = ⟨0xFFFFFFFFFFFFFFFE, wmax⟩ ∧
      add128 ⟨0, wmax⟩ ⟨0, 1⟩ = ⟨0, 0⟩ ∧ add128 ⟨wmax, 5⟩ ⟨wmax, 7⟩ = ⟨0xFFFFFFFFFFFFFFFE, 0xD⟩ ∧
      add128 ⟨0x8000000000000000, 0⟩ ⟨0x8000000000000000, 0⟩ = ⟨0, 1⟩ ∧
      add128 ⟨0x0123456789ABCDEF, 0xFEDCBA9876543210⟩ ⟨0xFEDCBA9876543210, 0x0123456789ABCDEF⟩ = ⟨wmax, wmax⟩ ∧
      add128 ⟨5, 7⟩ ⟨0, 0⟩ = ⟨5, 7⟩ := by decide

/-- B1 to B14, and the last SUB of program P4 for n = 186 (R104). -/
theorem test_sub_vectors :
    sub128 ⟨100, 2⟩ ⟨1, 1⟩ = some ⟨99, 1⟩ ∧ sub128 ⟨0, 2⟩ ⟨1, 1⟩ = some ⟨wmax, 0⟩ ∧ sub128 ⟨0, 2⟩ ⟨1, 3⟩ = none ∧
      sub128 ⟨5, 5⟩ ⟨5, 5⟩ = some ⟨0, 0⟩ ∧ sub128 ⟨0, 0⟩ ⟨0, 0⟩ = some ⟨0, 0⟩ ∧ sub128 ⟨0, 0⟩ ⟨1, 0⟩ = none ∧
      sub128 ⟨4, 7⟩ ⟨5, 7⟩ = none ∧ sub128 ⟨0, 1⟩ ⟨wmax, 0⟩ = some ⟨1, 0⟩ ∧
      sub128 ⟨0, wmax⟩ ⟨wmax, 0xFFFFFFFFFFFFFFFE⟩ = some ⟨1, 0⟩ ∧
      sub128 ⟨wmax, wmax⟩ ⟨wmax, wmax⟩ = some ⟨0, 0⟩ ∧ sub128 ⟨wmax, wmax⟩ ⟨0, 0⟩ = some ⟨wmax, wmax⟩ ∧
      sub128 ⟨0, 0⟩ ⟨0, 1⟩ = none ∧ sub128 ⟨7, 3⟩ ⟨8, 2⟩ = some ⟨wmax, 0⟩ ∧
      sub128 ⟨0, 1⟩ ⟨1, 0⟩ = some ⟨wmax, 0⟩ ∧
      sub128 ⟨0x37383C6A33A00CFC, 0x6A5E1467AF420E7E⟩ ⟨0x6E911B2F006D9C04, 0x6FFA4B8DB520A3EE⟩ = none := by decide

/-- M3, M4, M6, M7, M8, M9. -/
theorem test_mul_vectors_boundary :
    mul128 ⟨0x1234, 0x5678⟩ ⟨1, 0⟩ = ⟨0x1234, 0x5678⟩ ∧ mul128 ⟨1, 0⟩ ⟨0x1234, 0x5678⟩ = ⟨0x1234, 0x5678⟩ ∧
      mul128 ⟨wmax, 0⟩ ⟨2, 0⟩ = ⟨0xFFFFFFFFFFFFFFFE, 1⟩ ∧ mul128 ⟨wmax, 0⟩ ⟨wmax, 0⟩ = ⟨1, 0xFFFFFFFFFFFFFFFE⟩ ∧
      mul128 ⟨wmax, 0⟩ ⟨3, 0⟩ = ⟨0xFFFFFFFFFFFFFFFD, 2⟩ ∧ mul128 ⟨0, 1⟩ ⟨0, 1⟩ = ⟨0, 0⟩ := by decide +kernel

/-- M11, M12, M13, M15, M18. -/
theorem test_mul_vectors_high :
    mul128 ⟨0x1234, 0x5678⟩ ⟨0, 1⟩ = ⟨0, 0x1234⟩ ∧ mul128 ⟨wmax, wmax⟩ ⟨wmax, wmax⟩ = ⟨1, 0⟩ ∧
      mul128 ⟨wmax, wmax⟩ ⟨2, 0⟩ = ⟨0xFFFFFFFFFFFFFFFE, wmax⟩ ∧
      mul128 ⟨3, 0⟩ ⟨0, 0x8000000000000000⟩ = ⟨0, 0x8000000000000000⟩ ∧
      mul128 ⟨2, 0⟩ ⟨0x0123456789ABCDEF, 0x0FEDCBA987654321⟩ = ⟨0x02468ACF13579BDE, 0x1FDB97530ECA8642⟩ := by decide +kernel

/-! ## Steps: the lifecycle and the window (table 2.5) -/

/-- LC1: reset STATUS and CMD read 0. -/
theorem test_reads_after_reset :
    (after (step (atEvents [r8 0x38]))).responses = [.data 0] ∧
      (after (step (atEvents [r8 0x30]))).responses = [.data 0] := by decide

/-- LC2: misaligned, narrow, and a narrow write to CMD. -/
theorem test_bus_errors :
    (after (step (atEvents [.host (.read 0x04 8)]))).responses = [.busError 0x04] ∧
      (after (step (atEvents [.host (.read 0x00 4)]))).responses = [.busError 0x00] ∧
      (after (step (atEvents [.host (.write 0x30 1 1)]))).busy = false := by decide

/-- LC3, LC4. -/
theorem test_illegal_sets_ill :
    statusWord (after (step (atEvents [w8 0x30 0]))) = 0x4 ∧
      statusWord (after (step (atEvents [w8 0x30 0x101]))) = 0x4 := by decide

/-- LC5: STATUS after acceptance, then R and STATUS after completion. -/
theorem test_add_accepted :
    statusWord (after (step (loaded ⟨1, 0⟩ ⟨2, 0⟩ [w8 0x30 1]))) = 0x1 ∧
      (after (step (loaded ⟨1, 0⟩ ⟨2, 0⟩ [w8 0x30 1]))).r = ⟨0, 0⟩ := by decide

theorem test_add_completes :
    (after (step (pendingOn .add ⟨1, 0⟩ ⟨2, 0⟩ [.completion]))).r = ⟨3, 0⟩ ∧
      statusWord (after (step (pendingOn .add ⟨1, 0⟩ ⟨2, 0⟩ []))) = 0 := by decide

/-- LC6: STATUS 0x9 after a command written while busy. -/
theorem test_reject_while_busy :
    statusWord (after (step (pendingOn .add ⟨1, 0⟩ ⟨2, 0⟩ [w8 0x30 3]))) = 0x9 ∧
      (after (step (pendingOn .add ⟨1, 0⟩ ⟨2, 0⟩ [w8 0x30 3]))).pendOp = some .add := by decide

/-- LC7: an operand written while busy is stored, and the snapshot stays. -/
theorem test_operand_write_while_busy :
    (after (step (pendingOn .add ⟨1, 0⟩ ⟨2, 0⟩ [w8 0x00 100]))).a = ⟨100, 0⟩ ∧
      (after (step (pendingOn .add ⟨1, 0⟩ ⟨2, 0⟩ [w8 0x00 100]))).opa = ⟨1, 0⟩ := by decide

/-- LC8: Underflow leaves R, STATUS 0x2. -/
theorem test_sub_underflow :
    (after (step { pendingOn .sub ⟨0, 0⟩ ⟨1, 0⟩ [.completion] with r := ⟨3, 0⟩ })).r = ⟨3, 0⟩ ∧
      statusWord (after (step (pendingOn .sub ⟨0, 0⟩ ⟨1, 0⟩ [.completion]))) = 0x2 := by decide

/-- The borrow vector S2 through the machine. -/
theorem test_sub_completes : (after (step (pendingOn .sub ⟨0, 2⟩ ⟨1, 1⟩ [.completion]))).r = ⟨wmax, 0⟩ := by decide

/-- LC9: acceptance clears UF. -/
theorem test_acceptance_clears_uf :
    statusWord (after (step { atEvents [w8 0x30 1] with uf := true })) = 0x1 := by decide

/-- S5 through the machine. -/
theorem test_mul_completes :
    (after (step (pendingOn .mul ⟨wmax, 0⟩ ⟨2, 0⟩ [.completion]))).r = ⟨0xFFFFFFFFFFFFFFFE, 1⟩ := by decide

/-- LC10: W1C on ILL and REJ. -/
theorem test_status_w1c :
    statusWord (after (step { atEvents [w8 0x38 0x4] with ill := true, rej := true })) = 0x8 ∧
      statusWord (after (step { atEvents [w8 0x38 0x0] with rej := true })) = 0x8 ∧
      statusWord (after (step { atEvents [w8 0x38 0x8] with rej := true })) = 0x0 := by decide

/-- LC11: UF ignores writes. -/
theorem test_status_uf_ignores_writes :
    statusWord (after (step { atEvents [w8 0x38 0x3] with uf := true })) = 0x2 := by decide

/-- LC12: writes to R are ignored. -/
theorem test_result_write_ignored :
    (after (step (atEvents [w8 0x20 0x55]))).r = ⟨0, 0⟩ ∧ (after (step (atEvents [w8 0x28 0x66]))).r = ⟨0, 0⟩ := by
  decide

/-- LC13: reset discards the pending command. -/
theorem test_reset_discards :
    blockOf (after (step (pendingOn .add ⟨1, 0⟩ ⟨2, 0⟩ [.rst true]))) = State.reset := by decide

/-- I3: a transaction during reset has no step. -/
theorem test_transaction_in_reset : answersNext (step (inReset [r8 0x38])) = false := by decide

/-- R37, at an arbitrary base: STATUS stands at base + 0x38, and an address past the window is none of it. -/
theorem test_bus_address :
    windowOffset ⟨4096, 1, 1, 1⟩ (busAddress ⟨4096, 1, 1, 1⟩ .status) = some 0x38 ∧
      windowOffset ⟨4096, 1, 1, 1⟩ 4160 = none := by decide

/-- The placed word is run by the very next step. -/
theorem test_withFetchWord :
    (after (step (State.reset.withFetchWord 64 1))).pendOp = some .add ∧
      (after (step (State.reset.withFetchWord 64 2))).pendOp = some .sub ∧
      (after (step (State.reset.withFetchWord 64 3))).pendOp = some .mul := by decide

/-! ## The host's side: wire format (2.6) and notation (program P1, R64) -/

theorem test_wire_bytes :
    wireBytes ⟨0x0123456789ABCDEF, 0xFEDCBA9876543210⟩ =
      [0xEF, 0xDE, 0xCD, 0xBC, 0xAB, 0x9A, 0x89, 0x78, 0x10, 0x21, 0x32, 0x43, 0x54, 0x65, 0x76, 0x87] := by decide

theorem test_call_is_program_P1 :
    callEvents .add ⟨wmax, 5⟩ ⟨wmax, 7⟩ 1 =
      [w8 0x00 wmax, w8 0x08 5, w8 0x10 wmax, w8 0x18 7, w8 0x30 1, r8 0x38, .completion, r8 0x38, r8 0x20, r8 0x28] := by
  decide

theorem test_mnemonics : parseMnemonic (mnemonicOf .sub) = some .sub ∧ parseMnemonic "sub" = none := by decide

/-! ## Witnesses: states that meet the hypotheses of each statement, clause by clause -/

theorem witness_ResetAssertion :
    (pendingOn .mul ⟨1, 2⟩ ⟨3, 4⟩ [.rst true, r8 0x38]).events = [.rst true, r8 0x38] ∧
      (inReset [r8 0x38]).rst = true ∧ (inReset [r8 0x38]).events = [r8 0x38] ∧
      (inReset [.completion]).events = [.completion] ∧ (inReset []).events = [] ∧
      (inReset [.rst false]).events = [.rst false] ∧
      (atEvents [.completion]).busy = false ∧ (atEvents [.completion]).events = [.completion] := by decide

theorem witness_StepKeepsInvariant :
    Consistent (pendingOn .sub ⟨0, 0⟩ ⟨1, 0⟩ [.completion]) ∧
      answersNext (step (pendingOn .sub ⟨0, 0⟩ ⟨1, 0⟩ [.completion])) = true ∧
      Consistent (inReset [.rst false]) ∧ answersNext (step (inReset [.rst false])) = true :=
  ⟨⟨by decide, by decide, by decide⟩, by decide, ⟨by decide, by decide, by decide⟩, by decide⟩

theorem witness_OtherWordsAreIllegal :
    (0x0 : Word) ≠ 0x1 ∧ (0x4 : Word) ≠ 0x3 ∧ (commandFields 0x0).op = 0x00 ∧ 0x04 ≤ (commandFields 0xFF).op.toNat ∧
      (commandFields 0x101).res0 ≠ 0 ∧ (atEvents [w8 0x30 0x4]).busy = false ∧
      (atEvents [w8 0x30 0x4]).rst = false ∧ (atEvents [w8 0x30 0x4]).events = [w8 0x30 0x4] := by decide

theorem witness_CommandBytesRoundTrip :
    Instr.mul.wellFormed = true ∧ decodeBytes [3, 0, 0, 0, 0, 0, 0, 0] = some (.op .mul) := by decide

theorem witness_ByteLanesLittleEndian :
    7 < 8 ∧ (byteLane 0x8000000000000001 7).getLsbD 7 = true ∧ (byteLane 0x8000000000000001 0).getLsbD 0 = true := by
  decide

theorem witness_StepRunsDecodedCommand :
    (atEvents [w8 0x30 3]).rst = false ∧ (atEvents [w8 0x30 3]).events = [w8 0x30 3] ∧ decode 3 = .op .mul := by decide

theorem witness_CommandAcceptance :
    (loaded ⟨1, 0⟩ ⟨2, 0⟩ [w8 0x30 2]).busy = false ∧ (loaded ⟨1, 0⟩ ⟨2, 0⟩ [w8 0x30 2]).rst = false ∧
      decode 2 = .op .sub ∧ (loaded ⟨1, 0⟩ ⟨2, 0⟩ [w8 0x30 2]).events = [w8 0x30 2] := by decide

theorem witness_CommandRejection :
    (pendingOn .add ⟨1, 0⟩ ⟨2, 0⟩ [w8 0x30 0x4]).busy = true ∧
      (pendingOn .add ⟨1, 0⟩ ⟨2, 0⟩ [w8 0x30 0x4]).rst = false ∧
      (pendingOn .add ⟨1, 0⟩ ⟨2, 0⟩ [w8 0x30 0x4]).events = [w8 0x30 0x4] := by decide

theorem witness_IllegalCommandWrite :
    (atEvents [w8 0x30 0x101]).busy = false ∧ (atEvents [w8 0x30 0x101]).rst = false ∧
      decode 0x101 = .illegal 0x101 ∧ (atEvents [w8 0x30 0x101]).events = [w8 0x30 0x101] := by decide

/-- One event per branch: narrow, misaligned, busy, illegal, accepted; the ends of CMD's eight bytes. -/
theorem witness_CommandWritePrecedence :
    (0x30 : Offset).toNat / 8 = 6 ∧ (0x37 : Offset).toNat / 8 = 6 ∧ (0x2F : Offset).toNat / 8 ≠ 6 ∧
      (after (step (pendingOn .add ⟨1, 0⟩ ⟨2, 0⟩ [.host (.write 0x30 4 1)]))).rej = false ∧
      (after (step (pendingOn .add ⟨1, 0⟩ ⟨2, 0⟩ [.host (.write 0x37 8 1)]))).rej = false ∧
      (after (step (pendingOn .add ⟨1, 0⟩ ⟨2, 0⟩ [w8 0x30 0]))).rej = true ∧
      (after (step (atEvents [w8 0x30 0]))).ill = true ∧ (after (step (atEvents [w8 0x30 1]))).busy = true := by decide

theorem witness_CommandFrame :
    answersNext (exec .add (loaded ⟨1, 0⟩ ⟨2, 0⟩ [])) = true ∧ (loaded ⟨1, 0⟩ ⟨2, 0⟩ []).busy = false ∧
      answersNext (exec .mul (pendingOn .sub ⟨1, 0⟩ ⟨2, 0⟩ [])) = true ∧
      (pendingOn .sub ⟨1, 0⟩ ⟨2, 0⟩ []).busy = true ∧ RegName.cmd ≠ .status := by decide

theorem witness_CompletionWritesOutcome :
    (atEvents [.completion]).busy = false ∧ (atEvents [.completion]).events = [.completion] ∧
      (pendingOn .add ⟨1, 0⟩ ⟨2, 0⟩ [.completion]).pendOp = some .add ∧
      (pendingOn .mul ⟨1, 0⟩ ⟨2, 0⟩ [.completion]).pendOp = some .mul ∧
      (pendingOn .sub ⟨1, 0⟩ ⟨2, 0⟩ [.completion]).pendOp = some .sub ∧ sub128 ⟨1, 0⟩ ⟨2, 0⟩ = none ∧
      sub128 ⟨2, 0⟩ ⟨2, 0⟩ = some ⟨0, 0⟩ ∧ (pendingOn .sub ⟨2, 0⟩ ⟨2, 0⟩ [.completion]).busy = true ∧
      (pendingOn .sub ⟨2, 0⟩ ⟨2, 0⟩ [.completion]).rst = false := by decide

/-- The next step completes, with a completion listed and with nothing listed. -/
theorem witness_CompletesCommand :
    CompletesCommand (pendingOn .add ⟨1, 0⟩ ⟨2, 0⟩ [.completion]) ∧ CompletesCommand (pendingOn .mul ⟨1, 0⟩ ⟨2, 0⟩ []) :=
  ⟨⟨rfl, rfl, .inr rfl⟩, ⟨rfl, rfl, .inl rfl⟩⟩

theorem witness_CompletionFrame :
    CompletesCommand (pendingOn .sub ⟨1, 0⟩ ⟨2, 0⟩ [.completion]) ∧
      (pendingOn .sub ⟨1, 0⟩ ⟨2, 0⟩ [.completion]).pendOp = some .sub ∧
      (pendingOn .sub ⟨1, 0⟩ ⟨2, 0⟩ [.completion]).uf = false ∧
      (after (step (pendingOn .sub ⟨1, 0⟩ ⟨2, 0⟩ [.completion]))).uf = true ∧
      (pendingOn .add ⟨1, 0⟩ ⟨2, 0⟩ []).pendOp ≠ some .sub :=
  ⟨⟨rfl, rfl, .inr rfl⟩, rfl, rfl, by decide, by decide⟩

/-- The idle states of the three result statements: a carry, an underflow, a borrow, no borrow, a wrapped product. -/
theorem witness_CommandResults :
    (loaded ⟨wmax, 0⟩ ⟨1, 0⟩ []).busy = false ∧ (loaded ⟨wmax, 0⟩ ⟨1, 0⟩ []).rst = false ∧
      (loaded ⟨4, 7⟩ ⟨5, 7⟩ []).busy = false ∧ (loaded ⟨0, 2⟩ ⟨1, 1⟩ []).busy = false ∧
      (loaded ⟨5, 5⟩ ⟨5, 5⟩ []).busy = false ∧ (loaded ⟨wmax, wmax⟩ ⟨2, 0⟩ []).busy = false := by decide

theorem witness_CompletionHappens :
    Consistent (pendingOn .add ⟨1, 0⟩ ⟨2, 0⟩ [r8 0x38, w8 0x00 7]) ∧
      (pendingOn .add ⟨1, 0⟩ ⟨2, 0⟩ [r8 0x38, w8 0x00 7]).busy = true ∧
      (pendingOn .add ⟨1, 0⟩ ⟨2, 0⟩ [r8 0x38, w8 0x00 7]).rst = false ∧ NoReset [r8 0x38, w8 0x00 7] :=
  ⟨⟨by decide, by decide, by decide⟩, rfl, rfl, fun level => by cases level <;> decide⟩

theorem witness_PendingCommandPersists :
    (pendingOn .add ⟨1, 0⟩ ⟨2, 0⟩ [w8 0x30 3, .completion]).busy = true ∧
      (pendingOn .add ⟨1, 0⟩ ⟨2, 0⟩ [w8 0x30 3, .completion]).rst = false ∧
      (pendingOn .add ⟨1, 0⟩ ⟨2, 0⟩ [w8 0x30 3, .completion]).events =
        [Transaction.write 0x30 8 3].map Event.host ++ [.completion] := by decide

theorem witness_OutcomeAfterAnyTransactions :
    (loaded ⟨1, 0⟩ ⟨2, 0⟩ [w8 0x30 2, w8 0x00 9, .completion]).busy = false ∧
      (loaded ⟨1, 0⟩ ⟨2, 0⟩ [w8 0x30 2, w8 0x00 9, .completion]).rst = false ∧
      (loaded ⟨1, 0⟩ ⟨2, 0⟩ [w8 0x30 2, w8 0x00 9, .completion]).events =
        .host (.write 0x30 8 (encode .sub)) :: ([Transaction.write 0x00 8 9].map Event.host ++ [.completion]) ∧
      sub128 ⟨1, 0⟩ ⟨2, 0⟩ = none ∧ sub128 ⟨2, 0⟩ ⟨1, 0⟩ = some ⟨1, 0⟩ := by decide

/-- Two states that agree on the pending command and its snapshot and differ in A, R and REJ. -/
theorem witness_OutcomeDependsOnlyOnSnapshot :
    Consistent (pendingOn .sub ⟨1, 0⟩ ⟨2, 0⟩ []) ∧
      Consistent { pendingOn .sub ⟨1, 0⟩ ⟨2, 0⟩ [] with a := ⟨9, 9⟩, r := ⟨7, 7⟩, rej := true } ∧
      CompletesCommand (pendingOn .sub ⟨1, 0⟩ ⟨2, 0⟩ []) ∧
      CompletesCommand { pendingOn .sub ⟨1, 0⟩ ⟨2, 0⟩ [] with a := ⟨9, 9⟩, r := ⟨7, 7⟩, rej := true } ∧
      answersNext (step (pendingOn .sub ⟨1, 0⟩ ⟨2, 0⟩ [])) = true :=
  ⟨⟨by decide, by decide, by decide⟩, ⟨by decide, by decide, by decide⟩, ⟨rfl, rfl, .inl rfl⟩, ⟨rfl, rfl, .inl rfl⟩,
    by decide⟩

theorem witness_OperandsWrittenOnlyByHost :
    ¬ResetsNext (atEvents [w8 0x18 5]) ∧ (after (step (atEvents [w8 0x00 5]))).a.lo ≠ State.reset.a.lo ∧
      (after (step (atEvents [w8 0x08 5]))).a.hi ≠ State.reset.a.hi ∧
      (after (step (atEvents [w8 0x10 5]))).b.lo ≠ State.reset.b.lo ∧
      (after (step (atEvents [w8 0x18 5]))).b.hi ≠ State.reset.b.hi :=
  ⟨by unfold ResetsNext; decide, by decide, by decide, by decide, by decide⟩

theorem witness_ResultWrittenOnlyAtCompletion :
    ¬ResetsNext (pendingOn .add ⟨1, 0⟩ ⟨2, 0⟩ []) ∧
      (after (step (pendingOn .add ⟨1, 0⟩ ⟨2, 0⟩ []))).r ≠ (pendingOn .add ⟨1, 0⟩ ⟨2, 0⟩ []).r ∧
      (after (step (pendingOn .mul ⟨1, 0⟩ ⟨2, 0⟩ []))).r ≠ (pendingOn .mul ⟨1, 0⟩ ⟨2, 0⟩ []).r ∧
      (after (step (pendingOn .sub ⟨2, 0⟩ ⟨1, 0⟩ []))).r ≠ (pendingOn .sub ⟨2, 0⟩ ⟨1, 0⟩ []).r :=
  ⟨by unfold ResetsNext; decide, by decide, by decide, by decide⟩

theorem witness_SnapshotsWrittenOnlyAtAcceptance :
    ¬ResetsNext (loaded ⟨1, 0⟩ ⟨2, 0⟩ [w8 0x30 1]) ∧
      (after (step (loaded ⟨1, 0⟩ ⟨2, 0⟩ [w8 0x30 1]))).opa ≠ (loaded ⟨1, 0⟩ ⟨2, 0⟩ [w8 0x30 1]).opa :=
  ⟨by unfold ResetsNext; decide, by decide⟩

/-- BUSY rises at an acceptance and falls at a completion and at a reset. -/
theorem witness_BusyChanges :
    Consistent (atEvents [w8 0x30 1]) ∧ AcceptsNext (atEvents [w8 0x30 1]) ∧
      answersNext (step (atEvents [w8 0x30 1])) = true ∧ Consistent (pendingOn .add ⟨1, 0⟩ ⟨2, 0⟩ [.rst true]) ∧
      ResetsNext (pendingOn .add ⟨1, 0⟩ ⟨2, 0⟩ [.rst true]) ∧ CompletesCommand (pendingOn .add ⟨1, 0⟩ ⟨2, 0⟩ []) :=
  ⟨⟨by decide, by decide, by decide⟩, ⟨rfl, rfl, 1, .add, [], rfl, by decide⟩, by decide,
    ⟨by decide, by decide, by decide⟩, rfl, ⟨rfl, rfl, .inl rfl⟩⟩

/-- The clauses on UF: an acceptance, an underflow, a reset, and a step that is none of them. -/
theorem witness_UnderflowFlagChanges :
    AcceptsNext { atEvents [w8 0x30 1] with uf := true } ∧ UnderflowsNext (pendingOn .sub ⟨1, 0⟩ ⟨2, 0⟩ []) ∧
      ResetsNext { atEvents [.rst true] with uf := true } ∧ ¬AcceptsNext { atEvents [] with uf := true } ∧
      ¬UnderflowsNext { atEvents [] with uf := true } ∧ ¬ResetsNext { atEvents [] with uf := true } ∧
      Consistent { atEvents [] with uf := true } :=
  ⟨⟨rfl, rfl, 1, .add, [], rfl, by decide⟩, ⟨⟨rfl, rfl, .inl rfl⟩, rfl, by decide⟩, rfl,
    fun ⟨_, _, _, _, _, h, _⟩ => (nomatch h), fun h => (nomatch h.2.1), fun h => (nomatch h),
    ⟨by decide, by decide, by decide⟩⟩

/-- ILL set and kept, set and cleared, and newly set. -/
theorem witness_IllegalFlagIsSticky :
    (after (step { atEvents [w8 0x38 0x8] with ill := true })).ill = true ∧
      (after (step { atEvents [w8 0x38 0x4] with ill := true })).ill = false ∧
      WritesNext (atEvents [w8 0x30 0x4]) 0x30 0x4 ∧ (after (step (atEvents [w8 0x30 0x4]))).ill = true :=
  ⟨by decide, by decide, rfl, by decide⟩

/-- REJ set and kept, set and cleared, and newly set. -/
theorem witness_RejectFlagIsSticky :
    (after (step { atEvents [w8 0x38 0x4] with rej := true })).rej = true ∧
      (after (step { atEvents [w8 0x38 0x8] with rej := true })).rej = false ∧
      WritesNext (pendingOn .add ⟨1, 0⟩ ⟨2, 0⟩ [w8 0x30 0]) 0x30 0 ∧
      (after (step (pendingOn .add ⟨1, 0⟩ ⟨2, 0⟩ [w8 0x30 0]))).rej = true :=
  ⟨by decide, by decide, rfl, by decide⟩

/-- One state in which every register of the map reads something of its own. -/
theorem witness_RegisterReads :
    (after (step (loaded ⟨1, 2⟩ ⟨3, 4⟩ [r8 0x00]))).responses = [.data 1] ∧
      (after (step (loaded ⟨1, 2⟩ ⟨3, 4⟩ [r8 0x08]))).responses = [.data 2] ∧
      (after (step (loaded ⟨1, 2⟩ ⟨3, 4⟩ [r8 0x10]))).responses = [.data 3] ∧
      (after (step (loaded ⟨1, 2⟩ ⟨3, 4⟩ [r8 0x18]))).responses = [.data 4] ∧
      (after (step { atEvents [r8 0x20] with r := ⟨5, 6⟩ })).responses = [.data 5] ∧
      (after (step { atEvents [r8 0x28] with r := ⟨5, 6⟩ })).responses = [.data 6] ∧
      (after (step { atEvents [r8 0x30] with r := ⟨5, 6⟩ })).responses = [.data 0] ∧
      (after (step { atEvents [r8 0x38] with uf := true })).responses = [.data 2] := by decide

/-- The hypotheses of the write statements: out of reset, the write first. -/
theorem witness_RegisterWrites :
    (atEvents [w8 0x38 0xC]).rst = false ∧ (atEvents [w8 0x38 0xC]).events = [w8 0x38 0xC] ∧
      (atEvents [w8 0x00 1]).events = [w8 0x00 1] ∧ (atEvents [w8 0x08 1]).events = [w8 0x08 1] ∧
      (atEvents [w8 0x10 1]).events = [w8 0x10 1] ∧ (atEvents [w8 0x18 1]).events = [w8 0x18 1] ∧
      (atEvents [w8 0x20 1]).events = [w8 0x20 1] ∧ (atEvents [w8 0x28 1]).events = [w8 0x28 1] := by decide

/-- The edges of legality: the last aligned offset, the one after it, and sizes around 8. -/
theorem witness_IllegalTransactionIsBusError :
    (0x39 : Offset).toNat % 8 ≠ 0 ∧ (7 : Nat) ≠ 8 ∧ (9 : Nat) ≠ 8 ∧ (0x38 : Offset).toNat % 8 = 0 ∧
      (after (step (atEvents [.host (.read 0x39 8)]))).responses = [.busError 0x39] ∧
      (after (step (atEvents [.host (.write 0x38 9 0xC)]))).responses = [.busError 0x38] ∧
      (after (step (atEvents [w8 0x38 0xC]))).responses = [.ok] := by decide

theorem witness_WritesIdempotentButCommand :
    (atEvents [w8 0x38 0x4, w8 0x38 0x4]).rst = false ∧ (0x38 : Offset).toNat % 8 = 0 ∧ (0x38 : Offset) ≠ 0x30 ∧
      (0x30 : Offset).toNat % 8 = 0 ∧ (atEvents [w8 0x30 1, w8 0x30 1]).busy = false ∧
      (atEvents [w8 0x30 1, w8 0x30 1]).events = [w8 0x30 1, w8 0x30 1] ∧ decode 1 = .op .add := by decide

/-- Operands for the conditional laws of the three functions. -/
theorem witness_ValueLaws :
    2 ^ 128 ≤ (Wide.mk wmax wmax).val + (Wide.mk 1 0).val ∧ (Wide.mk 1 1).val ≤ (Wide.mk 0 2).val ∧
      (Wide.mk 0 2).val < (Wide.mk 1 3).val ∧ (0 : Word) < 1 ∧ (1 : Word) < 2 ∧ Wide.mk 1 0 ≠ ⟨0, 0⟩ ∧
      (2 : Word).getLsbD 1 = true ∧ (2 : Word).getLsbD 0 = false := by decide

theorem witness_SubNeverWraps :
    CompletesCommand (pendingOn .sub ⟨0, 2⟩ ⟨1, 3⟩ [.completion]) ∧
      (pendingOn .sub ⟨0, 2⟩ ⟨1, 3⟩ [.completion]).pendOp = some .sub ∧ (Wide.mk 0 2).val < (Wide.mk 1 3).val :=
  ⟨⟨rfl, rfl, .inr rfl⟩, rfl, by decide⟩

/-- A carry that no state keeps: a completion of an ADD whose low words carry. -/
theorem witness_AddCarryRule :
    addCarry ⟨wmax, 0⟩ ⟨1, 0⟩ = 1 ∧ addCarry ⟨wmax, 0⟩ ⟨0, 0⟩ = 0 ∧
      (pendingOn .add ⟨wmax, 0⟩ ⟨1, 0⟩ [.completion]).busy = true ∧
      (pendingOn .add ⟨wmax, 0⟩ ⟨1, 0⟩ [.completion]).rst = false ∧
      (pendingOn .add ⟨wmax, 0⟩ ⟨1, 0⟩ [.completion]).pendOp = some .add ∧
      (pendingOn .add ⟨wmax, 0⟩ ⟨1, 0⟩ [.completion]).events = [.completion] := by decide

/-- The word-boundary term at the ends of its range. -/
theorem witness_MulBoundaryTerm :
    0 < 64 ∧ 63 < 64 ∧ boundaryTerm ⟨wmax, 5⟩ 0 = 5 ∧ boundaryTerm ⟨wmax, 1⟩ 63 = wmax := by decide

/-- Another order of the 128 turns: the second loop first. -/
theorem witness_MulOrderIrrelevant :
    (((List.range 64).map (fun i => (true, i))) ++ ((List.range 64).map (fun i => (false, i)))).Perm
      (((List.range 64).map (fun i => (false, i))) ++ ((List.range 64).map (fun i => (true, i)))) :=
  List.perm_append_comm

theorem witness_MachineNeverStops :
    (atEvents [r8 0x38]).rst = false ∧ (pendingOn .add ⟨1, 0⟩ ⟨2, 0⟩ []).busy = true ∧
      answersNext (step (inReset [r8 0x38])) = false := by decide

theorem witness_IdleBlockHasNoStep : (atEvents []).busy = false ∧ (atEvents []).events = [] := by decide

end Sys2Proof.Tests
end

section
/-! PROOFS. The 128-bit values as natural numbers: bound, equality and ordering (00_scope R3 to R5). -/

namespace Sys2Proof
open Sys2Proof.Machine

/-- R4: equality is structural. -/
theorem Wide.eq_iff_words (x y : Wide) : x = y ↔ x.lo = y.lo ∧ x.hi = y.hi := by
  cases x
  cases y
  simp only [Wide.mk.injEq]

/-- The low word is the number's remainder at the word boundary. -/
theorem Wide.val_mod_word (x : Wide) : x.val % 2 ^ 64 = x.lo.toNat := by
  rw [Wide.val, Nat.add_mul_mod_self_right, Nat.mod_eq_of_lt x.lo.isLt]

/-- The high word is the number's quotient at the word boundary. -/
theorem Wide.val_div_word (x : Wide) : x.val / 2 ^ 64 = x.hi.toNat := by
  rw [Wide.val, Nat.add_mul_div_right _ _ (Nat.two_pow_pos 64), Nat.div_eq_of_lt x.lo.isLt, Nat.zero_add]

/-- R3: two 64-bit words hold a number of 128 bits. -/
theorem Wide.val_lt (x : Wide) : x.val < 2 ^ 128 := by
  have hlo := x.lo.isLt
  have hhi := x.hi.isLt
  unfold Wide.val
  omega

/-- The number determines both words, as its remainder and its quotient at the word boundary. -/
theorem Wide.val_injective : Function.Injective Wide.val := by
  intro x y h
  have hlo : x.lo.toNat = y.lo.toNat := by rw [← x.val_mod_word, ← y.val_mod_word, h]
  have hhi : x.hi.toNat = y.hi.toNat := by rw [← x.val_div_word, ← y.val_div_word, h]
  exact (Wide.eq_iff_words x y).2 ⟨BitVec.eq_of_toNat_eq hlo, BitVec.eq_of_toNat_eq hhi⟩

/-- R5: numbers compare as their words do, the high word first. A smaller high word decides because the low word cannot
make up for one unit of it: `lo < 2^64`. -/
theorem Wide.val_lt_val_iff (x y : Wide) :
    x.val < y.val ↔ x.hi < y.hi ∨ (x.hi = y.hi ∧ x.lo < y.lo) := by
  have hx := x.lo.isLt
  have hy := y.lo.isLt
  rw [BitVec.lt_def, BitVec.lt_def, ← BitVec.toNat_inj]
  unfold Wide.val
  omega

/-- The model's comparison is the lexicographic one of R5. -/
theorem wideLess_iff_words (x y : Wide) :
    wideLess x y = true ↔ x.hi < y.hi ∨ (x.hi = y.hi ∧ x.lo < y.lo) := by
  simp only [wideLess, Bool.or_eq_true, Bool.and_eq_true, beq_iff_eq, BitVec.ult_iff_lt]

/-- The model's comparison is the ordering of the numbers (R5). -/
theorem wideLess_iff_val_lt (x y : Wide) : wideLess x y = true ↔ x.val < y.val :=
  (wideLess_iff_words x y).trans (Wide.val_lt_val_iff x y).symm

/-- Settles O40: words and numbers give one ordering and one equality, the number being injective in the words. -/
theorem wideOrdering : Obligations.WideOrdering := fun x y =>
  ⟨wideLess_iff_words x y, wideLess_iff_val_lt x y, Wide.eq_iff_words x y, Wide.val_injective.eq_iff.symm, x.val_lt⟩

end Sys2Proof
end

section
/-! PROOFS. What one step does to the block, said once: the next event read off the head of the list, what a register
write does to each field, and the four things a step can be (20_memory R36 to R43, R50; 60_exceptions R106). -/

namespace Sys2Proof.Machine

/-! ## The next event -/

/-- Like the other predicates on the next event, this one reads the head of the list alone. -/
theorem completesNext_iff_head (s : State) :
    CompletesNext s ↔ s.events.head? = none ∨ s.events.head? = some .completion := by
  rw [CompletesNext, List.head?_eq_none_iff]

/-- An accepted command write is a legal write at CMD's offset of a word that decodes to a command (R69). -/
theorem acceptsNext_iff_writesNext (s : State) :
    AcceptsNext s ↔
      s.busy = false ∧ s.rst = false ∧ ∃ w i, WritesNext s (offsetOf .cmd) w ∧ decode w = .op i := by
  simp only [AcceptsNext, WritesNext, offsetOf, List.head?_eq_some_iff, exists_and_right]

/-- Only one write stands next. -/
theorem WritesNext.eq_iff {s : State} {off : Offset} {v : Word} (h : WritesNext s off v) (off' : Offset) (v' : Word) :
    WritesNext s off' v' ↔ off' = off ∧ v' = v := by
  simp only [WritesNext] at h ⊢
  simp [h, eq_comm]

theorem offsetOf_injective : Function.Injective offsetOf :=
  Function.LeftInverse.injective regAt_offsetOf

/-- Only one register's write stands next. -/
theorem WritesNext.offsetOf_iff {s : State} {reg : RegName} {v : Word} (h : WritesNext s (offsetOf reg) v)
    (reg' : RegName) (v' : Word) : WritesNext s (offsetOf reg') v' ↔ v' = v ∧ reg = reg' := by
  rw [h.eq_iff, offsetOf_injective.eq_iff, and_comm, eq_comm (a := reg)]

theorem WritesNext.not_resetsNext {s : State} {off : Offset} {v : Word} (h : WritesNext s off v) : ¬ResetsNext s := by
  simp only [WritesNext] at h
  simp [ResetsNext, h]

theorem WritesNext.not_completesCommand {s : State} {off : Offset} {v : Word} (h : WritesNext s off v) :
    ¬CompletesCommand s := by
  simp only [WritesNext] at h
  simp [CompletesCommand, completesNext_iff_head, h]

theorem ResetsNext.not_writesNext {s : State} (h : ResetsNext s) (off : Offset) (v : Word) : ¬WritesNext s off v :=
  fun hw => hw.not_resetsNext h

theorem CompletesCommand.not_writesNext {s : State} (h : CompletesCommand s) (off : Offset) (v : Word) :
    ¬WritesNext s off v :=
  fun hw => hw.not_completesCommand h

theorem CompletesCommand.not_resetsNext {s : State} (h : CompletesCommand s) : ¬ResetsNext s := by
  obtain ⟨-, -, hnext⟩ := h
  rw [completesNext_iff_head] at hnext
  obtain he | he := hnext <;> simp [ResetsNext, he]

theorem AcceptsNext.not_resetsNext {s : State} (h : AcceptsNext s) : ¬ResetsNext s := by
  obtain ⟨-, -, w, i, hw, -⟩ := (acceptsNext_iff_writesNext s).1 h
  exact hw.not_resetsNext

theorem AcceptsNext.not_completesCommand {s : State} (h : AcceptsNext s) : ¬CompletesCommand s := by
  obtain ⟨-, -, w, i, hw, -⟩ := (acceptsNext_iff_writesNext s).1 h
  exact hw.not_completesCommand

/-! ## What a write does -/

theorem commandEffect_of_busy (w : Word) {s : State} (h : s.busy = true) : commandEffect w s = rejectCommand s := by
  unfold commandEffect
  split
  · exact requestCommand_of_busy _ s h
  · exact requestIllegal_of_busy s h

theorem commandEffect_of_op {w : Word} {i : Instr} {s : State} (h : s.busy = false) (hd : decode w = .op i) :
    commandEffect w s = acceptCommand i s := by
  simp only [commandEffect, hd, requestCommand_of_not_busy i s h]

theorem commandEffect_of_illegal {w x : Word} {s : State} (h : s.busy = false) (hd : decode w = .illegal x) :
    commandEffect w s = setIll s := by
  simp only [commandEffect, hd, requestIllegal_of_not_busy s h]

/-- Everything a word written to CMD can do (R106 points 2 to 4). -/
theorem commandEffect_cases (w : Word) (s : State) :
    (s.busy = true ∧ commandEffect w s = rejectCommand s) ∨
      (∃ i, s.busy = false ∧ decode w = .op i ∧ commandEffect w s = acceptCommand i s) ∨
      (∃ x, s.busy = false ∧ decode w = .illegal x ∧ commandEffect w s = setIll s) := by
  cases hb : s.busy with
  | true => exact .inl ⟨rfl, commandEffect_of_busy w hb⟩
  | false =>
    cases hd : decode w with
    | op i => exact .inr (.inl ⟨i, rfl, rfl, commandEffect_of_op hb hd⟩)
    | illegal x => exact .inr (.inr ⟨x, rfl, rfl, commandEffect_of_illegal hb hd⟩)

/-- R62: the words that are no command. -/
theorem decode_illegal_iff (w : Word) : (∃ x, decode w = .illegal x) ↔ w ≠ 0x1 ∧ w ≠ 0x2 ∧ w ≠ 0x3 := by
  obtain ⟨rfl, hd⟩ | ⟨rfl, hd⟩ | ⟨rfl, hd⟩ | ⟨h1, h2, h3, hd⟩ := decode_cases w
  · rw [hd]
    simp
  · rw [hd]
    simp
  · rw [hd]
    simp
  · exact iff_of_true ⟨w, hd⟩ ⟨h1, h2, h3⟩

/-- The fields no register write touches: R (R43) and the `rst` level. -/
theorem writeEffect_frame (reg : RegName) (v : Word) (s : State) :
    (writeEffect reg v s).r = s.r ∧ (writeEffect reg v s).rst = s.rst := by
  cases reg with
  | cmd =>
    show (commandEffect v s).r = s.r ∧ (commandEffect v s).rst = s.rst
    obtain ⟨-, h⟩ | ⟨i, -, -, h⟩ | ⟨x, -, -, h⟩ := commandEffect_cases v s <;> simp [h]
  | _ => exact ⟨rfl, rfl⟩

/-- R16, R40: a register write changes a word of A only at that word's own offset. -/
theorem writeEffect_a (reg : RegName) (v : Word) (s : State) :
    (writeEffect reg v s).a = { lo := if reg = .aLo then v else s.a.lo, hi := if reg = .aHi then v else s.a.hi } := by
  cases reg with
  | cmd =>
    show (commandEffect v s).a = s.a
    obtain ⟨-, h⟩ | ⟨i, -, -, h⟩ | ⟨x, -, -, h⟩ := commandEffect_cases v s <;> simp [h]
  | _ => rfl

/-- R17, R40: a register write changes a word of B only at that word's own offset. -/
theorem writeEffect_b (reg : RegName) (v : Word) (s : State) :
    (writeEffect reg v s).b = { lo := if reg = .bLo then v else s.b.lo, hi := if reg = .bHi then v else s.b.hi } := by
  cases reg with
  | cmd =>
    show (commandEffect v s).b = s.b
    obtain ⟨-, h⟩ | ⟨i, -, -, h⟩ | ⟨x, -, -, h⟩ := commandEffect_cases v s <;> simp [h]
  | _ => rfl

/-- R24, R26: what a register write does to ILL. -/
theorem writeEffect_ill_iff (reg : RegName) (v : Word) (s : State) :
    (writeEffect reg v s).ill = true ↔
      (s.ill = true ∧ (reg = .status → v.getLsbD 2 = false)) ∨
        (s.busy = false ∧ reg = .cmd ∧ ∃ x, decode v = .illegal x) := by
  cases reg with
  | cmd =>
    show (commandEffect v s).ill = true ↔ _
    obtain ⟨hb, h⟩ | ⟨i, hb, hd, h⟩ | ⟨x, hb, hd, h⟩ := commandEffect_cases v s <;> simp [*]
  | _ => simp [writeEffect]

/-- R25, R26: what a register write does to REJ. -/
theorem writeEffect_rej_iff (reg : RegName) (v : Word) (s : State) :
    (writeEffect reg v s).rej = true ↔
      (s.rej = true ∧ (reg = .status → v.getLsbD 3 = false)) ∨ (s.busy = true ∧ reg = .cmd) := by
  cases reg with
  | cmd =>
    show (commandEffect v s).rej = true ↔ _
    obtain ⟨hb, h⟩ | ⟨i, hb, hd, h⟩ | ⟨x, hb, hd, h⟩ := commandEffect_cases v s <;> simp [*]
  | _ => simp [writeEffect]

/-- A field of the block itself is the same in states with the same block. -/
theorem eq_of_blockOf_eq {α : Type} (f : State → α) (hf : ∀ s, f (blockOf s) = f s) {s t : State}
    (h : blockOf t = blockOf s) : f t = f s := by
  rw [← hf t, h, hf s]

/-- `s` and `t` agree on everything a pending command reads or writes. -/
structure SameCommandState (s t : State) : Prop where
  r : t.r = s.r
  busy : t.busy = s.busy
  uf : t.uf = s.uf
  pendOp : t.pendOp = s.pendOp
  opa : t.opa = s.opa
  opb : t.opb = s.opb

theorem SameCommandState.of_blockOf_eq {s t : State} (h : blockOf t = blockOf s) : SameCommandState s t where
  r := eq_of_blockOf_eq State.r blockOf_r h
  busy := eq_of_blockOf_eq State.busy blockOf_busy h
  uf := eq_of_blockOf_eq State.uf blockOf_uf h
  pendOp := eq_of_blockOf_eq State.pendOp blockOf_pendOp h
  opa := eq_of_blockOf_eq State.opa blockOf_opa h
  opb := eq_of_blockOf_eq State.opb blockOf_opb h

theorem SameCommandState.trans {s t u : State} (h : SameCommandState s t) (h' : SameCommandState t u) :
    SameCommandState s u where
  r := h'.r.trans h.r
  busy := h'.busy.trans h.busy
  uf := h'.uf.trans h.uf
  pendOp := h'.pendOp.trans h.pendOp
  opa := h'.opa.trans h.opa
  opb := h'.opb.trans h.opb

/-- R69, R75: a register write is an acceptance, or it leaves all that a command reads or writes. -/
theorem writeEffect_accepts_or_keeps (reg : RegName) (v : Word) (s : State) :
    (∃ i, reg = .cmd ∧ s.busy = false ∧ decode v = .op i ∧ writeEffect reg v s = acceptCommand i s) ∨
      ((∀ i, reg = .cmd → s.busy = false → decode v ≠ .op i) ∧ SameCommandState s (writeEffect reg v s)) := by
  cases reg with
  | cmd =>
    obtain ⟨hb, h⟩ | ⟨i, hb, hd, h⟩ | ⟨x, hb, hd, h⟩ := commandEffect_cases v s
    · refine .inr ⟨by simp [hb], ?_⟩
      show SameCommandState s (commandEffect v s)
      rw [h]
      constructor <;> rfl
    · exact .inl ⟨i, rfl, hb, hd, h⟩
    · refine .inr ⟨by simp [hd], ?_⟩
      show SameCommandState s (commandEffect v s)
      rw [h]
      constructor <;> rfl
  | _ => exact .inr ⟨by simp, by constructor <;> rfl⟩

/-- If a register's word is not what it was, that register's write stood next. -/
theorem WritesNext.of_word_changed {s : State} {reg reg' : RegName} {v w : Word}
    (h : WritesNext s (offsetOf reg) v) (hne : (if reg = reg' then v else w) ≠ w) :
    WritesNext s (offsetOf reg') (if reg = reg' then v else w) := by
  obtain ⟨rfl, -⟩ := ite_ne_right_iff.1 hne
  rwa [if_pos rfl]

/-! ## The block's part of each operation does not see the other agents' fields -/

@[simp] theorem blockOf_takeEvents (rest : List Event) (s : State) : blockOf (takeEvents rest s) = blockOf s := rfl
@[simp] theorem blockOf_respond (x : Response) (s : State) : blockOf (respond x s) = blockOf s := rfl
@[simp] theorem blockOf_releaseReset (s : State) : blockOf (releaseReset s) = blockOf s := rfl
@[simp] theorem blockOf_assertReset (s : State) : blockOf (assertReset s) = State.reset := rfl

theorem blockOf_complete (s : State) : blockOf (complete s) = complete (blockOf s) := by
  unfold complete completeAdd completeSub completeMul
  simp only [blockOf_pendOp, blockOf_opa, blockOf_opb]
  split
  · rfl
  · split <;> rfl
  · rfl
  · rfl

theorem blockOf_commandEffect (w : Word) (s : State) : blockOf (commandEffect w s) = commandEffect w (blockOf s) := by
  obtain ⟨hb, h⟩ | ⟨i, hb, hd, h⟩ | ⟨x, hb, hd, h⟩ := commandEffect_cases w s
  · rw [h, commandEffect_of_busy w (s := blockOf s) hb]
    rfl
  · rw [h, commandEffect_of_op (s := blockOf s) hb hd]
    rfl
  · rw [h, commandEffect_of_illegal (s := blockOf s) hb hd]
    rfl

theorem blockOf_writeEffect (reg : RegName) (v : Word) (s : State) :
    blockOf (writeEffect reg v s) = writeEffect reg v (blockOf s) := by
  cases reg with
  | cmd => exact blockOf_commandEffect v s
  | _ => rfl

/-! ## What a step does -/

/-- The legal write of a register (R36, R38). -/
theorem transactResult_write (reg : RegName) (v : Word) (s : State) :
    transactResult (.write (offsetOf reg) 8 v) s = respond .ok (writeEffect reg v s) := by
  simp [transactResult, legalAccess_offsetOf, regAt_offsetOf]

theorem step_write (reg : RegName) (v : Word) (s : State) (rest : List Event)
    (h : s.events = .host (.write (offsetOf reg) 8 v) :: rest) (hr : s.rst = false) :
    step s = .next (respond .ok (writeEffect reg v (takeEvents rest s))) := by
  rw [step_host s _ rest h hr, transactResult_write]

/-- A transaction is the legal write of a register, or it changes the responses alone (R36, R39). -/
theorem transactResult_cases (x : Transaction) (s : State) :
    (∃ reg v, x = .write (offsetOf reg) 8 v ∧ transactResult x s = respond .ok (writeEffect reg v s)) ∨
      ((∀ reg v, x ≠ .write (offsetOf reg) 8 v) ∧ ∃ y, transactResult x s = respond y s) := by
  cases x with
  | read addr n =>
    refine .inr ⟨by simp, ?_⟩
    cases hl : legalAccess addr n with
    | true => exact ⟨.data (readReg (regAt addr) s), by simp [transactResult, hl]⟩
    | false => exact ⟨.busError addr, by simp [transactResult, hl]⟩
  | write addr n v =>
    cases hl : legalAccess addr n with
    | true =>
      obtain ⟨rfl, haddr⟩ := (legalAccess_iff addr n).1 hl
      rw [← offsetOf_regAt addr haddr]
      exact .inl ⟨_, v, rfl, transactResult_write _ v s⟩
    | false =>
      refine .inr ⟨?_, .busError addr, by simp [transactResult, hl]⟩
      rintro reg w h
      obtain ⟨rfl, rfl, -⟩ := Transaction.write.inj h
      simp [legalAccess_offsetOf] at hl

/-- The four things a step can be: the assertion of `rst`, the completion of the pending command, the legal write of a
register, or a step that leaves the block's own state. -/
inductive StepEffect (s t : State) : Prop
  | resets (hev : ResetsNext s) (ht : blockOf t = blockOf (assertReset s))
  | completes (hev : CompletesCommand s) (hrst : t.rst = false) (ht : blockOf t = blockOf (complete s))
  | writes (reg : RegName) (v : Word) (hev : WritesNext s (offsetOf reg) v) (hs : s.rst = false) (hrst : t.rst = false)
    (ht : blockOf t = blockOf (writeEffect reg v s))
  | quiet (hreset : ¬ResetsNext s) (hcomplete : ¬CompletesCommand s)
    (hwrite : ∀ reg v, ¬WritesNext s (offsetOf reg) v) (hrst : t.rst = true → s.rst = true)
    (ht : blockOf t = blockOf s)

/-- A completion point performs the completion where it is enabled, and is quiet where it is not (R72, R114). -/
theorem StepEffect.of_completesNext {s : State} (h : CompletesNext s) (rest : List Event) :
    StepEffect s (completeIfEnabled (takeEvents rest s)) := by
  have hhead := (completesNext_iff_head s).1 h
  by_cases hc : CompletesCommand s
  · obtain ⟨hb, hr, -⟩ := hc
    rw [completeIfEnabled_of_enabled (takeEvents rest s) hb hr]
    refine .completes ⟨hb, hr, h⟩ ?_ ?_
    · obtain ⟨-, -, -, -, -, -, hrst, -⟩ := complete_frame (takeEvents rest s)
      exact hrst.trans hr
    · rw [blockOf_complete, blockOf_complete, blockOf_takeEvents]
  · have hidle : completeIfEnabled (takeEvents rest s) = takeEvents rest s := by
      by_cases hb : s.busy = true
      · exact completeIfEnabled_of_reset _ (by simpa [CompletesCommand, h, hb] using hc)
      · exact completeIfEnabled_of_not_busy _ (by simpa using hb)
    rw [hidle]
    refine .quiet ?_ hc ?_ id rfl <;> obtain he | he := hhead <;> simp [ResetsNext, WritesNext, he]

/-- Every step that answers a next state has one of the four effects. -/
theorem step_effect {s t : State} (h : step s = .next t) : StepEffect s t := by
  obtain ⟨he, rfl⟩ | ⟨rest, ⟨x, he, hr, rfl⟩ | ⟨he, rfl⟩ | ⟨he, rfl⟩ | ⟨he, rfl⟩⟩ := step_cases s t h
  · have hs : takeEvents [] s = s := by rw [← he]; rfl
    have heffect := StepEffect.of_completesNext (.inl he) []
    rwa [hs] at heffect
  · obtain ⟨reg, v, rfl, ht⟩ | ⟨hx, y, ht⟩ := transactResult_cases x (takeEvents rest s) <;> rw [ht]
    · obtain ⟨-, hrst⟩ := writeEffect_frame reg v (takeEvents rest s)
      refine .writes reg v (by simp [WritesNext, he]) hr (hrst.trans hr) ?_
      rw [blockOf_respond, blockOf_writeEffect, blockOf_writeEffect, blockOf_takeEvents]
    · refine .quiet (by simp [ResetsNext, he]) (by simp [CompletesCommand, completesNext_iff_head, he]) ?_ id rfl
      simpa [WritesNext, he] using hx
  · exact .of_completesNext (.inr (by simp [he])) rest
  · exact .resets (by simp [ResetsNext, he]) rfl
  · exact .quiet (by simp [ResetsNext, he]) (by simp [CompletesCommand, completesNext_iff_head, he])
      (by simp [WritesNext, he]) (by simp) rfl

end Sys2Proof.Machine
end

section
/-! PROOFS. What may write the operands, the result, the snapshots and the flags, over every step, and the invariant
(10_state R16 to R29, R33). -/

namespace Sys2Proof.Machine

/-! ## The command half of the state: R, BUSY, UF, PEND_OP, OPA, OPB -/

/-- The four things a step can do to R, BUSY, UF, PEND_OP and the snapshots: reset, complete, accept, or nothing. The
cases exclude each other (`AcceptsNext.not_completesCommand` and its like). -/
inductive CommandStepEffect (s t : State) : Prop
  | resets (hev : ResetsNext s) (ht : blockOf t = blockOf (assertReset s))
  | completes (hev : CompletesCommand s) (ht : blockOf t = blockOf (complete s))
  | accepts (hev : AcceptsNext s) (i : Instr) (ht : blockOf t = blockOf (acceptCommand i s))
  | keeps (hreset : ¬ResetsNext s) (hcomplete : ¬CompletesCommand s) (haccept : ¬AcceptsNext s)
    (same : SameCommandState s t)

/-- Of the register writes only an accepted command touches this half of the state. -/
theorem step_commandEffect {s t : State} (h : step s = .next t) : CommandStepEffect s t := by
  cases step_effect h with
  | resets hev ht => exact .resets hev ht
  | completes hev _ ht => exact .completes hev ht
  | writes reg v hev hs _ ht =>
    obtain ⟨i, rfl, hb, hd, heq⟩ | ⟨hno, same⟩ := writeEffect_accepts_or_keeps reg v s
    · exact .accepts ((acceptsNext_iff_writesNext s).2 ⟨hb, hs, v, i, hev, hd⟩) i (heq ▸ ht)
    · refine .keeps hev.not_resetsNext hev.not_completesCommand (fun hacc => ?_)
        (same.trans (.of_blockOf_eq ht))
      obtain ⟨hb, -, w, i, hw, hd⟩ := (acceptsNext_iff_writesNext s).1 hacc
      obtain ⟨rfl, hreg⟩ := (hev.offsetOf_iff .cmd w).1 hw
      exact hno i hreg hb hd
  | quiet hreset hcomplete hwrite _ ht =>
    refine .keeps hreset hcomplete (fun hacc => ?_) (.of_blockOf_eq ht)
    obtain ⟨-, -, w, i, hw, -⟩ := (acceptsNext_iff_writesNext s).1 hacc
    exact hwrite .cmd w hw

/-- R87: SUB fails exactly for the smaller minuend, which its two tests find word by word (R5). -/
theorem sub128_eq_none_iff_val_lt (x y : Wide) : sub128 x y = none ↔ x.val < y.val := by
  rw [Wide.val_lt_val_iff, BitVec.lt_def, BitVec.lt_def, ← BitVec.toNat_inj]
  unfold sub128
  split_ifs <;> simp <;> omega

/-- R18: what a completion can have written to R. -/
theorem complete_r_cases (s : State) :
    (complete s).r = s.r ∨ (s.pendOp = some .add ∧ (complete s).r = add128 s.opa s.opb) ∨
      (s.pendOp = some .mul ∧ (complete s).r = mul128 s.opa s.opb) ∨
      (s.pendOp = some .sub ∧ s.opb.val ≤ s.opa.val ∧ sub128 s.opa s.opb = some (complete s).r) := by
  obtain ⟨hp, h⟩ | ⟨hp, h⟩ | ⟨hp, d, hd, h⟩ | ⟨-, -, h⟩ | ⟨-, h⟩ := complete_cases s
  · exact .inr (.inl ⟨hp, by simp [h]⟩)
  · exact .inr (.inr (.inl ⟨hp, by simp [h]⟩))
  · have hle : ¬s.opa.val < s.opb.val := by simp [← sub128_eq_none_iff_val_lt, hd]
    exact .inr (.inr (.inr ⟨hp, Nat.le_of_not_lt hle, by simp [h, hd]⟩))
  · exact .inl (by simp [h])
  · exact .inl (by simp [h])

/-- R23: the completion of a SUB that underflows sets UF. -/
theorem complete_uf_of_underflow {s : State} (hp : s.pendOp = some .sub) (hlt : s.opa.val < s.opb.val) :
    (complete s).uf = true := by
  simp [complete, hp, completeSub, (sub128_eq_none_iff_val_lt s.opa s.opb).2 hlt]

/-- R23: no other completion changes UF. -/
theorem complete_uf_of_not_underflow {s : State} (h : ¬(s.pendOp = some .sub ∧ s.opa.val < s.opb.val)) :
    (complete s).uf = s.uf := by
  obtain ⟨-, hc⟩ | ⟨-, hc⟩ | ⟨-, d, -, hc⟩ | ⟨hp, hd, -⟩ | ⟨-, hc⟩ := complete_cases s
  · simp [hc]
  · simp [hc]
  · simp [hc]
  · exact absurd ⟨hp, (sub128_eq_none_iff_val_lt _ _).1 hd⟩ h
  · simp [hc]

/-- R22, R29: while BUSY = 1 the accepted command is known. -/
theorem Consistent.exists_pendOp {s : State} (hs : Consistent s) (hb : s.busy = true) : ∃ i, s.pendOp = some i :=
  Option.isSome_iff_exists.1 (hs.pending ▸ hb)

/-- R22 over a step. -/
theorem step_keeps_pending {s t : State} (hs : Consistent s) (h : step s = .next t) : t.busy = t.pendOp.isSome := by
  cases step_commandEffect h with
  | resets _ ht =>
    rw [eq_of_blockOf_eq State.busy blockOf_busy ht, eq_of_blockOf_eq State.pendOp blockOf_pendOp ht]
    rfl
  | completes _ ht =>
    obtain ⟨-, -, -, -, -, -, -, -, -, hbusy, hpend⟩ := complete_frame s
    rw [eq_of_blockOf_eq State.busy blockOf_busy ht, eq_of_blockOf_eq State.pendOp blockOf_pendOp ht, hbusy, hpend]
    rfl
  | accepts _ i ht =>
    rw [eq_of_blockOf_eq State.busy blockOf_busy ht, eq_of_blockOf_eq State.pendOp blockOf_pendOp ht]
    rfl
  | keeps _ _ _ same => rw [same.busy, same.pendOp, hs.pending]

/-- R23 over a step: the flag is cleared by acceptance, and what sets it clears BUSY. -/
theorem step_keeps_ufClear {s t : State} (hs : Consistent s) (h : step s = .next t) (hb : t.busy = true) :
    t.uf = false := by
  cases step_commandEffect h with
  | resets _ ht => exact eq_of_blockOf_eq State.uf blockOf_uf ht
  | completes _ ht =>
    obtain ⟨-, -, -, -, -, -, -, -, -, hbusy, -⟩ := complete_frame s
    rw [eq_of_blockOf_eq State.busy blockOf_busy ht, hbusy] at hb
    cases hb
  | accepts _ i ht => exact eq_of_blockOf_eq State.uf blockOf_uf ht
  | keeps _ _ _ same =>
    rw [same.busy] at hb
    rw [same.uf, hs.ufClear hb]

/-- R114 over a step: while `rst` stays asserted no step touches the block. -/
theorem step_keeps_inReset {s t : State} (hs : Consistent s) (h : step s = .next t) (hr : t.rst = true) :
    blockOf t = State.reset := by
  cases step_effect h with
  | resets _ ht => exact ht
  | completes _ hrst _ => simp [hrst] at hr
  | writes _ _ _ _ hrst _ => simp [hrst] at hr
  | quiet _ _ _ hrst ht => rw [ht, hs.inReset (hrst hr)]

/-! ## The obligations on A, B, R, the snapshots, BUSY and UF -/

/-- Settles O4: the three clauses of the invariant, each kept by every step. -/
theorem stepKeepsInvariant : Obligations.StepKeepsInvariant := fun _ _ hs h =>
  ⟨step_keeps_pending hs h, step_keeps_ufClear hs h, step_keeps_inReset hs h⟩

/-- Settles O26: of the four effects of a step only a register write reaches A and B, and only the written word. -/
theorem operandsWrittenOnlyByHost : Obligations.OperandsWrittenOnlyByHost := by
  intro s t h hreset
  cases step_effect h with
  | resets hev _ => exact absurd hev hreset
  | completes _ _ ht =>
    obtain ⟨ha, hb, -⟩ := complete_frame s
    have ha' := (eq_of_blockOf_eq State.a blockOf_a ht).trans ha
    have hb' := (eq_of_blockOf_eq State.b blockOf_b ht).trans hb
    simp [ha', hb']
  | writes reg v hev _ _ ht =>
    have ha := (eq_of_blockOf_eq State.a blockOf_a ht).trans (writeEffect_a reg v s)
    have hb := (eq_of_blockOf_eq State.b blockOf_b ht).trans (writeEffect_b reg v s)
    simp only [ha, hb]
    exact ⟨hev.of_word_changed, hev.of_word_changed, hev.of_word_changed, hev.of_word_changed⟩
  | quiet _ _ _ _ ht =>
    simp [eq_of_blockOf_eq State.a blockOf_a ht, eq_of_blockOf_eq State.b blockOf_b ht]

/-- Settles O27: of the four effects on the command half only a completion writes R (`complete_r_cases`). -/
theorem resultWrittenOnlyAtCompletion : Obligations.ResultWrittenOnlyAtCompletion := by
  intro s t h hreset hne
  cases step_commandEffect h with
  | resets hev _ => exact absurd hev hreset
  | completes hev ht =>
    rw [eq_of_blockOf_eq State.r blockOf_r ht] at hne ⊢
    exact ⟨hev, (complete_r_cases s).resolve_left hne⟩
  | accepts _ i ht => exact absurd (eq_of_blockOf_eq State.r blockOf_r ht) hne
  | keeps _ _ _ same => exact absurd same.r hne

/-- Settles O28: of the four effects on the command half only an acceptance writes the snapshots. -/
theorem snapshotsWrittenOnlyAtAcceptance : Obligations.SnapshotsWrittenOnlyAtAcceptance := by
  intro s t h hreset hne
  cases step_commandEffect h with
  | resets hev _ => exact absurd hev hreset
  | completes _ ht =>
    obtain ⟨-, -, -, -, hopa, hopb, -⟩ := complete_frame s
    simp [eq_of_blockOf_eq State.opa blockOf_opa ht, eq_of_blockOf_eq State.opb blockOf_opb ht, hopa, hopb] at hne
  | accepts hev i ht =>
    exact ⟨hev, eq_of_blockOf_eq State.opa blockOf_opa ht, eq_of_blockOf_eq State.opb blockOf_opb ht,
      eq_of_blockOf_eq State.busy blockOf_busy ht⟩
  | keeps _ _ _ same => simp [same.opa, same.opb] at hne

/-- Settles O29: the four effects on the command half exclude each other, and each fixes BUSY. -/
theorem busyChanges : Obligations.BusyChanges := by
  intro s t hs h
  refine ⟨hs.exists_pendOp, ?_⟩
  cases step_commandEffect h with
  | resets hev ht =>
    have htb : t.busy = false := eq_of_blockOf_eq State.busy blockOf_busy ht
    exact ⟨fun _ => iff_of_false (by simp [htb]) fun ha => ha.not_resetsNext hev, fun _ => iff_of_true htb (.inr hev)⟩
  | completes hev ht =>
    obtain ⟨-, -, -, -, -, -, -, -, -, hbusy, -⟩ := complete_frame s
    have htb := (eq_of_blockOf_eq State.busy blockOf_busy ht).trans hbusy
    exact ⟨fun _ => iff_of_false (by simp [htb]) fun ha => ha.not_completesCommand hev,
      fun _ => iff_of_true htb (.inl hev)⟩
  | accepts hev i ht =>
    have ⟨hidle, _⟩ := hev
    have htb : t.busy = true := eq_of_blockOf_eq State.busy blockOf_busy ht
    exact ⟨fun _ => iff_of_true htb hev, fun hb => by simp [hidle] at hb⟩
  | keeps hreset hcomplete haccept same =>
    rw [same.busy]
    exact ⟨fun hb => iff_of_false (by simp [hb]) haccept,
      fun hb => iff_of_false (by simp [hb]) (not_or.2 ⟨hcomplete, hreset⟩)⟩

/-- Settles O30: the four effects on the command half exclude each other, and each fixes UF. -/
theorem underflowFlagChanges : Obligations.UnderflowFlagChanges := by
  intro s t hs h
  refine ⟨hs.ufClear, ?_⟩
  cases step_commandEffect h with
  | resets hev ht =>
    have huf : t.uf = false := eq_of_blockOf_eq State.uf blockOf_uf ht
    exact ⟨fun _ => huf, fun ⟨hc, _⟩ => absurd hev hc.not_resetsNext, fun _ => huf, fun _ _ hr => absurd hev hr⟩
  | completes hev ht =>
    rw [eq_of_blockOf_eq State.uf blockOf_uf ht]
    exact ⟨fun ha => absurd hev ha.not_completesCommand, fun ⟨_, hp, hlt⟩ => complete_uf_of_underflow hp hlt,
      fun hr => absurd hr hev.not_resetsNext,
      fun _ hu _ => complete_uf_of_not_underflow fun hsub => hu ⟨hev, hsub⟩⟩
  | accepts hev i ht =>
    have huf : t.uf = false := eq_of_blockOf_eq State.uf blockOf_uf ht
    exact ⟨fun _ => huf, fun ⟨hc, _⟩ => absurd hc hev.not_completesCommand, fun _ => huf, fun ha => absurd hev ha⟩
  | keeps hreset hcomplete haccept same =>
    exact ⟨fun ha => absurd ha haccept, fun ⟨hc, _⟩ => absurd hc hcomplete, fun hr => absurd hr hreset,
      fun _ _ _ => same.uf⟩

/-! ## ILL and REJ -/

/-- R24: ILL through the four effects of a step; reset and writes to CMD and STATUS alone reach it. -/
theorem step_ill_iff {s t : State} (h : step s = .next t) :
    t.ill = true ↔
      (s.ill = true ∧ ¬ResetsNext s ∧ ∀ v, WritesNext s (offsetOf .status) v → v.getLsbD 2 = false) ∨
        (s.busy = false ∧ ∃ v, WritesNext s (offsetOf .cmd) v ∧ ∃ x, decode v = .illegal x) := by
  cases step_effect h with
  | resets hev ht => simp [eq_of_blockOf_eq State.ill blockOf_ill ht, hev, hev.not_writesNext]
  | completes hev _ ht =>
    obtain ⟨-, -, hill, -⟩ := complete_frame s
    simp [eq_of_blockOf_eq State.ill blockOf_ill ht, hill, hev.not_resetsNext, hev.not_writesNext]
  | writes reg v hev _ _ ht =>
    rw [eq_of_blockOf_eq State.ill blockOf_ill ht, writeEffect_ill_iff]
    simp [hev.offsetOf_iff, hev.not_resetsNext]
  | quiet hreset _ hwrite _ ht => simp [eq_of_blockOf_eq State.ill blockOf_ill ht, hreset, hwrite]

/-- R25: REJ through the four effects of a step; reset and writes to CMD and STATUS alone reach it. -/
theorem step_rej_iff {s t : State} (h : step s = .next t) :
    t.rej = true ↔
      (s.rej = true ∧ ¬ResetsNext s ∧ ∀ v, WritesNext s (offsetOf .status) v → v.getLsbD 3 = false) ∨
        (s.busy = true ∧ ∃ v, WritesNext s (offsetOf .cmd) v) := by
  cases step_effect h with
  | resets hev ht => simp [eq_of_blockOf_eq State.rej blockOf_rej ht, hev, hev.not_writesNext]
  | completes hev _ ht =>
    obtain ⟨-, -, -, hrej, -⟩ := complete_frame s
    simp [eq_of_blockOf_eq State.rej blockOf_rej ht, hrej, hev.not_resetsNext, hev.not_writesNext]
  | writes reg v hev _ _ ht =>
    rw [eq_of_blockOf_eq State.rej blockOf_rej ht, writeEffect_rej_iff]
    simp [hev.offsetOf_iff, hev.not_resetsNext]
  | quiet hreset _ hwrite _ ht => simp [eq_of_blockOf_eq State.rej blockOf_rej ht, hreset, hwrite]

/-- Settles O31: `step_ill_iff`, with the illegal words spelled out (R62). -/
theorem illegalFlagIsSticky : Obligations.IllegalFlagIsSticky := by
  intro s t h
  have hill := step_ill_iff h
  simp only [decode_illegal_iff] at hill
  exact hill

/-- Settles O32: `step_rej_iff` at the offsets of STATUS and CMD. -/
theorem rejectFlagIsSticky : Obligations.RejectFlagIsSticky := fun _ _ h => step_rej_iff h

/-! ## Reset and STATUS -/

/-- Settles O1: the values of `State.reset`, and the STATUS word they make. -/
theorem resetState : Obligations.ResetState :=
  ⟨rfl, rfl, rfl, by decide, rfl, rfl, rfl, rfl, rfl, rfl, rfl⟩

/-- Settles O3: at reset nothing is pending and UF is clear, and the block is its own reset value. -/
theorem resetMeetsInvariant : Obligations.ResetMeetsInvariant where
  pending := rfl
  ufClear _ := rfl
  inReset _ := rfl

/-- A flag shows at its own bit and nowhere else. -/
theorem flagBit_getLsbD (f : Bool) (k j : Nat) (hk : k < 64) : (flagBit f k).getLsbD j = (decide (j = k) && f) := by
  rw [flagBit, BitVec.getLsbD_shiftLeft, BitVec.getLsbD_setWidth, BitVec.getLsbD_ofBool]
  by_cases hj : j = k
  · simp [hj, hk]
  · have hbit : j < k ∨ j - k ≠ 0 := by omega
    obtain hbit | hbit := hbit <;> simp [hj, hbit]

/-- R21: every bit of the STATUS word. -/
theorem statusWord_getLsbD (s : State) (j : Nat) :
    (statusWord s).getLsbD j =
      (decide (j = 0) && s.busy || decide (j = 1) && s.uf || decide (j = 2) && s.ill || decide (j = 3) && s.rej) := by
  simp only [statusWord, BitVec.getLsbD_or]
  rw [flagBit_getLsbD _ 0 j (by decide), flagBit_getLsbD _ 1 j (by decide), flagBit_getLsbD _ 2 j (by decide),
    flagBit_getLsbD _ 3 j (by decide)]

/-- Settles O34: each flag is OR-ed in at its own bit, and no bit from 4 up is any flag's. -/
theorem statusLayout : Obligations.StatusLayout := by
  intro s
  simp only [statusWord_getLsbD]
  refine ⟨by simp, by simp, by simp, by simp, fun k hk => ?_⟩
  have hne : k ≠ 0 ∧ k ≠ 1 ∧ k ≠ 2 ∧ k ≠ 3 := by omega
  simp [hne]

/-- Settles O35: the step is `writeStatus`, which clears by `&&` with the inverted bit. -/
theorem statusWriteClears : Obligations.StatusWriteClears := by
  intro s v rest hr he
  rw [step_write .status v s rest he hr]
  simp only [Bool.if_false_left, Bool.decide_eq_true, Bool.and_comm (!_)]
  rfl

end Sys2Proof.Machine
end

section
/-! PROOFS. Words and their bytes: the little-endian byte lanes of a transaction and the command words they carry
(20_memory R44; 30_encoding R57 to R62), and the external wire format (20_memory R55, R56). -/

namespace Sys2Proof

/-! ## Byte lanes -/

/-- R44: which bit of the word stands at each bit of a lane. -/
theorem byteLane_getLsbD (w : Word) (k : Nat) {j : Nat} (hj : j < 8) :
    (byteLane w k).getLsbD j = w.getLsbD (8 * k + j) := by
  simp [byteLane, hj]

@[simp] theorem length_bytesOfWord (w : Word) : (bytesOfWord w).length = 8 := by simp [bytesOfWord]

theorem bytesOfWord_getD (w : Word) {k : Nat} (hk : k < 8) : (bytesOfWord w).getD k 0 = byteLane w k := by
  simp [bytesOfWord, hk]

/-- R44: bit `j` of the word made from bytes is a bit of byte `j / 8`. -/
theorem wordOfBytes_getLsbD (bs : List Byte) {j : Nat} (hj : j < 64) :
    (wordOfBytes bs).getLsbD j = (bs.getD (j / 8) 0).getLsbD (j % 8) := by
  induction bs generalizing j with
  | nil => simp [wordOfBytes]
  | cons b bs ih =>
    rw [wordOfBytes, BitVec.getLsbD_or, BitVec.getLsbD_setWidth, BitVec.getLsbD_shiftLeft]
    obtain hlow | hhigh := Nat.lt_or_ge j 8
    · simp [hj, hlow, Nat.div_eq_of_lt hlow, Nat.mod_eq_of_lt hlow]
    · have hdiv : j / 8 = (j - 8) / 8 + 1 := by omega
      have hmod : j % 8 = (j - 8) % 8 := by omega
      rw [ih (by omega), hdiv, hmod, List.getD_cons_succ]
      simp [hj, hhigh]

/-- R44: the lanes of a word make it again. -/
theorem wordOfBytes_bytesOfWord (w : Word) : wordOfBytes (bytesOfWord w) = w := by
  refine BitVec.eq_of_getLsbD_eq fun j hj => ?_
  rw [wordOfBytes_getLsbD _ hj, bytesOfWord_getD w (by omega), byteLane_getLsbD w _ (Nat.mod_lt j (by decide)),
    Nat.div_add_mod]

/-- R44: eight bytes are the lanes of the word they make. -/
theorem bytesOfWord_wordOfBytes {bs : List Byte} (h : bs.length = 8) : bytesOfWord (wordOfBytes bs) = bs := by
  refine List.ext_getElem (by simp [h]) fun k hk hk' => BitVec.eq_of_getLsbD_eq fun j hj => ?_
  have hdiv : (8 * k + j) / 8 = k := by omega
  have hmod : (8 * k + j) % 8 = j := by omega
  have hbit : 8 * k + j < 64 := by omega
  rw [← List.getD_eq_getElem _ 0 hk, bytesOfWord_getD _ (h ▸ hk'), byteLane_getLsbD _ k hj, wordOfBytes_getLsbD bs hbit,
    hdiv, hmod, List.getD_eq_getElem _ 0 hk']

/-! ## Command words -/

theorem decode_encode (i : Instr) : decode (encode i) = .op i := by cases i <;> rfl

/-- R60, R62: each command is decoded from its own word and from no other. -/
theorem decode_eq_op_iff (w : Word) (i : Instr) : decode w = .op i ↔ w = encode i := by
  refine ⟨fun h => ?_, fun h => h ▸ decode_encode i⟩
  obtain ⟨rfl, hd⟩ | ⟨rfl, hd⟩ | ⟨rfl, hd⟩ | ⟨-, -, -, hd⟩ := Machine.decode_cases w <;> cases hd.symm.trans h <;> rfl

/-- R57: a command is exactly eight bytes. -/
theorem decodeBytes_eq_some_iff (bs : List Byte) (c : Command) :
    decodeBytes bs = some c ↔ bs.length = 8 ∧ decode (wordOfBytes bs) = c := by
  simp [decodeBytes]

/-- Settles O8: `wordOfBytes` and `bytesOfWord` are inverse on eight bytes, and a command has one word. -/
theorem commandBytesRoundTrip : Obligations.CommandBytesRoundTrip := by
  intro i _
  simp only [decodeBytes_eq_some_iff, decode_eq_op_iff, encodeBytes]
  refine ⟨⟨length_bytesOfWord _, wordOfBytes_bytesOfWord _⟩, ?_⟩
  rintro bs ⟨hlen, hword⟩
  rw [← hword, bytesOfWord_wordOfBytes hlen]

/-- Settles O10: a lane is an extract of the word, and the word is made bit by bit from its lanes. -/
theorem byteLanesLittleEndian : Obligations.ByteLanesLittleEndian := fun w =>
  ⟨fun k _ _ hj => byteLane_getLsbD w k hj, length_bytesOfWord w, wordOfBytes_bytesOfWord w⟩

end Sys2Proof

namespace Sys2Proof.Machine

/-! ## The external wire format -/

/-- R55: byte `i` begins at bit `4 * i`, so neighbouring bytes overlap in four bits. -/
theorem wireByte_getLsbD (w : Word) (i : Nat) {j : Nat} (hj : j < 8) :
    (wireByte w i).getLsbD j = w.getLsbD (4 * i + j) := by
  simp [wireByte, hj]

/-- R56: the eight bytes of a word show exactly its bits 35 to 0; the last byte, at bit 28, is the only one to show bits
35 to 32. -/
theorem map_wireByte_eq_iff (w w' : Word) :
    (List.range 8).map (wireByte w) = (List.range 8).map (wireByte w') ↔
      ∀ k < 36, w.getLsbD k = w'.getLsbD k := by
  simp only [List.map_inj_left, List.mem_range, BitVec.eq_of_getLsbD_eq_iff]
  constructor
  · intro h k hk
    have hbyte : min (k / 4) 7 < 8 := by omega
    have hbit : k - 4 * min (k / 4) 7 < 8 := by omega
    have hk' : 4 * min (k / 4) 7 + (k - 4 * min (k / 4) 7) = k := by omega
    have hkeep := h _ hbyte _ hbit
    rwa [wireByte_getLsbD w _ hbit, wireByte_getLsbD w' _ hbit, hk'] at hkeep
  · intro h i hi j hj
    rw [wireByte_getLsbD w i hj, wireByte_getLsbD w' i hj, h _ (by omega)]

/-- Settles O58: the buffer is the bytes of the two words, eight each, so it shows what each half shows. -/
theorem wireFormatKeepsLowBits : Obligations.WireFormatKeepsLowBits := by
  intro x y
  have hwords : wireBytes x = wireBytes y ↔
      (List.range 8).map (wireByte x.lo) = (List.range 8).map (wireByte y.lo) ∧
        (List.range 8).map (wireByte x.hi) = (List.range 8).map (wireByte y.hi) :=
    ⟨fun h => List.append_inj h (by simp), fun ⟨hlo, hhi⟩ => congrArg₂ (· ++ ·) hlo hhi⟩
  refine ⟨?_, by simp [wireBytes]⟩
  simp only [hwords, map_wireByte_eq_iff, forall_and]

end Sys2Proof.Machine
end

section
/-! PROOFS. The host's transactions with the register window: what each answers, and that none ends a pending command
(20_memory R36 to R47; 40_command_lifecycle R70, R74). -/

namespace Sys2Proof.Machine

/-! ## What a transaction does and answers -/

/-- The fields of the other agents that no register write touches. -/
theorem writeEffect_agents (reg : RegName) (v : Word) (s : State) :
    (writeEffect reg v s).events = s.events ∧ (writeEffect reg v s).responses = s.responses := by
  cases reg with
  | cmd =>
    show (commandEffect v s).events = s.events ∧ (commandEffect v s).responses = s.responses
    obtain ⟨-, h⟩ | ⟨i, -, -, h⟩ | ⟨x, -, -, h⟩ := commandEffect_cases v s <;> simp [h]
  | _ => exact ⟨rfl, rfl⟩

/-- A transaction leaves the other agents' events and the `rst` level. -/
theorem transactResult_frame (x : Transaction) (s : State) :
    (transactResult x s).events = s.events ∧ (transactResult x s).rst = s.rst := by
  obtain ⟨reg, v, -, h⟩ | ⟨-, y, h⟩ := transactResult_cases x s
  · obtain ⟨-, hrst⟩ := writeEffect_frame reg v s
    obtain ⟨hevents, -⟩ := writeEffect_agents reg v s
    simp [h, hevents, hrst]
  · simp [h]

/-- The legal read of a register (R38, R39). -/
theorem step_read (reg : RegName) (s : State) (rest : List Event)
    (h : s.events = .host (.read (offsetOf reg) 8) :: rest) (hr : s.rst = false) :
    step s = .next (respond (.data (readReg reg s)) (takeEvents rest s)) := by
  rw [step_host s _ rest h hr]
  simp only [transactResult, legalAccess_offsetOf, regAt_offsetOf, if_true]
  cases reg <;> rfl

/-- R36: what is not eight bytes at a multiple of 8 is not legal. -/
theorem legalAccess_eq_false_iff (addr : Offset) (n : Nat) :
    legalAccess addr n = false ↔ n ≠ 8 ∨ addr.toNat % 8 ≠ 0 := by
  rw [← Bool.not_eq_true, legalAccess_iff, not_and_or]

/-! ## A pending command -/

/-- R70, R74: a transaction leaves all that a pending command reads or writes. -/
theorem transactResult_keeps_pending (x : Transaction) {s : State} (hb : s.busy = true) :
    SameCommandState s (transactResult x s) := by
  obtain ⟨reg, v, -, h⟩ | ⟨-, y, h⟩ := transactResult_cases x s
  · obtain ⟨i, -, hidle, -⟩ | ⟨-, same⟩ := writeEffect_accepts_or_keeps reg v s
    · simp [hb] at hidle
    · rw [h]
      exact same.trans (.of_blockOf_eq (blockOf_respond _ _))
  · rw [h]
    exact .of_blockOf_eq (blockOf_respond _ _)

/-- R51, R74: so does any list of transactions, each of them taken in its own step. -/
theorem runSteps_transactions_keep_pending (ts : List Transaction) (rest : List Event) {s : State}
    (hb : s.busy = true) (hr : s.rst = false) (he : s.events = ts.map Event.host ++ rest) :
    ∃ t, runSteps ts.length s = .next t ∧ t.events = rest ∧ t.rst = false ∧ SameCommandState s t := by
  induction ts generalizing s with
  | nil => exact ⟨s, rfl, he, hr, .of_blockOf_eq rfl⟩
  | cons x ts ih =>
    have hstep := step_host s x _ he hr
    obtain ⟨hevents, hrst⟩ := transactResult_frame x (takeEvents (ts.map Event.host ++ rest) s)
    have same : SameCommandState s (transactResult x (takeEvents (ts.map Event.host ++ rest) s)) :=
      .trans (.of_blockOf_eq (blockOf_takeEvents _ s)) (transactResult_keeps_pending x hb)
    obtain ⟨t, hrun, het, hrt, same'⟩ := ih (same.busy.trans hb) (hrst.trans hr) hevents
    refine ⟨t, ?_, het, hrt, same.trans same'⟩
    rw [List.length_cons, runSteps, hstep]
    exact hrun

/-- Settles O23: `runSteps_transactions_keep_pending`, and STATUS shows BUSY at bit 0. -/
theorem pendingCommandPersists : Obligations.PendingCommandPersists := by
  intro s ts rest hb hr he
  obtain ⟨t, hrun, het, hrt, same⟩ := runSteps_transactions_keep_pending ts rest hb hr he
  have htb : t.busy = true := same.busy.trans hb
  have hstatus : (readReg .status t).getLsbD 0 = true := by simp [readReg, statusWord_getLsbD, htb]
  exact ⟨t, hrun, het, hrt, htb, hstatus, same.pendOp, same.opa, same.opb, same.r, same.uf⟩

/-! ## Legal and illegal transactions -/

/-- Settles O38: what is not legal is answered by `BusError` alone; a legal read answers data and a legal write `ok`. -/
theorem illegalTransactionIsBusError : Obligations.IllegalTransactionIsBusError := by
  intro s addr n v rest hr
  refine ⟨fun hillegal => ?_, fun hn ha => ?_⟩
  · have hl := (legalAccess_eq_false_iff addr n).2 hillegal
    have hread : transactResult (.read addr n) (takeEvents rest s) =
        respond (.busError addr) (takeEvents rest s) := by simp [transactResult, hl]
    have hwrite : transactResult (.write addr n v) (takeEvents rest s) =
        respond (.busError addr) (takeEvents rest s) := by simp [transactResult, hl]
    exact ⟨fun he => (step_host s _ rest he hr).trans (congrArg _ hread),
      fun he => (step_host s _ rest he hr).trans (congrArg _ hwrite)⟩
  · rw [hn, ← offsetOf_regAt addr ha]
    rintro (he | he)
    · exact ⟨_, _, step_read _ s rest he hr, rfl, nofun⟩
    · obtain ⟨-, hresponses⟩ := writeEffect_agents (regAt addr) v (takeEvents rest s)
      exact ⟨_, .ok, step_write _ v s rest he hr, by simp [hresponses], nofun⟩

/-! ## Writing twice -/

/-- R47: the second of two identical writes finds its own work done, at every register but CMD. -/
theorem writeEffect_idem {reg : RegName} (hreg : reg ≠ .cmd) (v : Word) (s : State) :
    writeEffect reg v (writeEffect reg v s) = writeEffect reg v s := by
  cases reg with
  | cmd => exact absurd rfl hreg
  | status => simp [writeEffect, writeStatus]
  | _ => rfl

/-- Two identical writes of a register in a row, each a step of its own. -/
theorem step_write_twice (reg : RegName) (v : Word) {s : State} (rest : List Event) (hr : s.rst = false)
    (he : s.events = .host (.write (offsetOf reg) 8 v) :: .host (.write (offsetOf reg) 8 v) :: rest) :
    ∃ t u, step s = .next t ∧ step t = .next u ∧ blockOf t = writeEffect reg v (blockOf s) ∧
      blockOf u = writeEffect reg v (blockOf t) := by
  have ht := step_write reg v s _ he hr
  obtain ⟨-, hrst⟩ := writeEffect_frame reg v (takeEvents (.host (.write (offsetOf reg) 8 v) :: rest) s)
  obtain ⟨hevents, -⟩ := writeEffect_agents reg v (takeEvents (.host (.write (offsetOf reg) 8 v) :: rest) s)
  refine ⟨_, _, ht, step_write reg v _ rest hevents (hrst.trans hr), ?_, ?_⟩ <;>
    simp [blockOf_writeEffect]

/-- Settles O39: `writeEffect` is idempotent but at CMD, where an accepted command makes the block busy. -/
theorem writesIdempotentButCommand : Obligations.WritesIdempotentButCommand := by
  intro s off v rest hr haligned he
  rw [← offsetOf_regAt off haligned] at he ⊢
  obtain ⟨t, u, hst, htu, ht, hu⟩ := step_write_twice _ v rest hr he
  refine ⟨t, u, hst, htu, fun hoff => ?_, fun hoff hb i hd => ?_⟩
  · rw [hu, ht, writeEffect_idem (mt (congrArg offsetOf) hoff)]
  · have hreg : regAt off = .cmd := offsetOf_injective hoff
    rw [hreg] at ht hu
    have haccept : blockOf t = acceptCommand i (blockOf s) := ht.trans (commandEffect_of_op hb hd)
    have hbusy : t.busy = true := by simpa using congrArg State.busy haccept
    have hrej : t.rej = s.rej := by simpa using congrArg State.rej haccept
    exact ⟨hbusy, hrej, hu.trans (commandEffect_of_busy v hbusy)⟩

/-! ## The registers one by one -/

/-- Settles O11: the step is `commandEffect` of the word, and so is `exec` of the command it decodes to. -/
theorem stepRunsDecodedCommand : Obligations.StepRunsDecodedCommand := by
  intro s rest w i hr he hd
  rw [step_write .cmd w s rest he hr, exec_eq_requestCommand]
  have heffect : writeEffect .cmd w (takeEvents rest s) = requestCommand i (takeEvents rest s) := by
    simp only [writeEffect, commandEffect, hd]
  rw [heffect]
  rfl

/-- Settles O33: `step_read` at each register's offset. -/
theorem registerReads : Obligations.RegisterReads := by
  intro s rest hr off v hmap he
  obtain ⟨rfl, rfl⟩ | ⟨rfl, rfl⟩ | ⟨rfl, rfl⟩ | ⟨rfl, rfl⟩ | ⟨rfl, rfl⟩ | ⟨rfl, rfl⟩ | ⟨rfl, rfl⟩ | ⟨rfl, rfl⟩ := hmap
  · exact step_read .aLo s rest he hr
  · exact step_read .aHi s rest he hr
  · exact step_read .bLo s rest he hr
  · exact step_read .bHi s rest he hr
  · exact step_read .rLo s rest he hr
  · exact step_read .rHi s rest he hr
  · exact step_read .cmd s rest he hr
  · exact step_read .status s rest he hr

/-- Settles O36: `step_write` at each operand word, where the effect is the store and nothing else. -/
theorem operandWrites : Obligations.OperandWrites := fun s v rest hr =>
  ⟨fun he => step_write .aLo v s rest he hr, fun he => step_write .aHi v s rest he hr,
    fun he => step_write .bLo v s rest he hr, fun he => step_write .bHi v s rest he hr⟩

/-- Settles O37: `step_write` at the two words of R, where the effect is none. -/
theorem resultWritesIgnored : Obligations.ResultWritesIgnored := by
  rintro s off v rest hr (rfl | rfl) he
  · exact step_write .rLo v s rest he hr
  · exact step_write .rHi v s rest he hr

end Sys2Proof.Machine
end

section
/-! PROOFS. The opcode map and the illegal words (30_encoding R57, R60 to R62; 40_command_lifecycle R71). -/

namespace Sys2Proof

/-! ## Command words by mask and by field -/

/-- R60: the word of a command is its row's match value. -/
theorem matchOf_eq_encode (i : Instr) : matchOf i = encode i := by cases i <;> rfl

/-- R60: the masks cover all 64 bits. -/
theorem maskOf_eq_allOnes (i : Instr) : maskOf i = BitVec.allOnes 64 := by cases i <;> rfl

/-- R60: masking a word keeps all of it. -/
theorem and_maskOf (w : Word) (i : Instr) : w &&& maskOf i = w := by
  rw [maskOf_eq_allOnes, BitVec.and_allOnes]

/-- R62: a word that is none of the three decodes to itself as ILLEGAL. -/
theorem decode_eq_illegal_iff (w : Word) : decode w = .illegal w ↔ w ≠ 0x1 ∧ w ≠ 0x2 ∧ w ≠ 0x3 := by
  refine ⟨fun h => (Machine.decode_illegal_iff w).1 ⟨w, h⟩, fun ⟨h1, h2, h3⟩ => ?_⟩
  obtain ⟨h, -⟩ | ⟨h, -⟩ | ⟨h, -⟩ | ⟨-, -, -, hd⟩ := Machine.decode_cases w
  · exact absurd h h1
  · exact absurd h h2
  · exact absurd h h3
  · exact hd

/-- R57: OP is the low byte of a command word and RES0 is everything above it. -/
theorem toNat_eq_commandFields (w : Word) :
    w.toNat = (commandFields w).op.toNat + 2 ^ 8 * (commandFields w).res0.toNat := by
  have hw := w.isLt
  simp only [commandFields, BitVec.extractLsb'_toNat, Nat.shiftRight_eq_div_pow]
  omega

/-- R61: the fields that make a word illegal, OP unassigned or RES0 not 0. -/
theorem illegalFields_iff (w : Word) :
    ((commandFields w).op = 0x00 ∨ 0x04 ≤ (commandFields w).op.toNat ∨ (commandFields w).res0 ≠ 0) ↔
      w ≠ 0x1 ∧ w ≠ 0x2 ∧ w ≠ 0x3 := by
  have hw := toNat_eq_commandFields w
  have hop := (commandFields w).op.isLt
  simp only [ne_eq, ← BitVec.toNat_inj, BitVec.ofNat_eq_ofNat, BitVec.toNat_ofNat]
  omega

/-! ## Writing an illegal word -/

/-- R71: an illegal word written to CMD of an idle block sets ILL and does nothing else. -/
theorem Machine.step_illegalCommand {s : State} {w x : Word} {rest : List Event} (hb : s.busy = false)
    (hr : s.rst = false) (he : s.events = .host (.write 0x30 8 w) :: rest) (hd : decode w = .illegal x) :
    step s = .next (respond .ok (setIll (takeEvents rest s))) := by
  have heffect : writeEffect .cmd w (takeEvents rest s) = setIll (takeEvents rest s) :=
    commandEffect_of_illegal hb hd
  rw [step_write .cmd w s rest he hr, heffect]

/-! ## The encoding obligations -/

/-- Settles O6: `decode_eq_op_iff`, where the mask keeps the whole word and the match value is the command word. -/
theorem opcodeMapMatches : Obligations.OpcodeMapMatches := by
  refine ⟨rfl, rfl, rfl, fun i w => ⟨maskOf_eq_allOnes i, matchOf_eq_encode i, ?_, decode_eq_op_iff w i⟩⟩
  rw [and_maskOf, matchOf_eq_encode]
  exact decode_eq_op_iff w i

/-- Settles O7: `decode_eq_illegal_iff` and `step_illegalCommand`, and the fields of an illegal word by
`illegalFields_iff`. -/
theorem otherWordsAreIllegal : Obligations.OtherWordsAreIllegal := by
  refine fun w => ⟨fun h1 h2 h3 => ?_, illegalFields_iff w⟩
  have hd : decode w = .illegal w := (decode_eq_illegal_iff w).2 ⟨h1, h2, h3⟩
  exact ⟨hd, fun _ _ hb hr he => Machine.step_illegalCommand hb hr he hd⟩

/-- Settles O5: each outcome by its own equivalence, and `decode_cases` says that one of the four always holds. -/
theorem decodingIsTotal : Obligations.DecodingIsTotal := by
  refine fun w => ⟨decode_eq_op_iff w .add, decode_eq_op_iff w .sub, decode_eq_op_iff w .mul,
    decode_eq_illegal_iff w, ?_⟩
  obtain ⟨-, hd⟩ | ⟨-, hd⟩ | ⟨-, hd⟩ | ⟨-, -, -, hd⟩ := Machine.decode_cases w
  · exact .inl hd
  · exact .inr (.inl hd)
  · exact .inr (.inr (.inl hd))
  · exact .inr (.inr (.inr hd))

/-- Settles O9: a command's word decodes to it, and the other five words are none of the three. -/
theorem decodeTableWords : Obligations.DecodeTableWords :=
  ⟨decode_encode .add, decode_encode .sub, decode_encode .mul,
    (decode_eq_illegal_iff _).2 (by decide), (decode_eq_illegal_iff _).2 (by decide),
    (decode_eq_illegal_iff _).2 (by decide), (decode_eq_illegal_iff _).2 (by decide),
    (decode_eq_illegal_iff _).2 (by decide)⟩

end Sys2Proof
end

section
/-! PROOFS. The life of a command: requested, accepted or rejected, and completed with the function of its snapshot
(40_command_lifecycle R69 to R77). -/

namespace Sys2Proof.Machine

/-! ## The request -/

/-- R69: a command is accepted while BUSY = 0. -/
theorem exec_of_not_busy (i : Instr) {s : State} (hb : s.busy = false) : exec i s = .next (acceptCommand i s) := by
  rw [exec_eq_requestCommand, requestCommand_of_not_busy i s hb]

/-- R70: a command is rejected while BUSY = 1. -/
theorem exec_of_busy (i : Instr) {s : State} (hb : s.busy = true) : exec i s = .next (rejectCommand s) := by
  rw [exec_eq_requestCommand, requestCommand_of_busy i s hb]

/-- R69: the write of a command's word to CMD of an idle block is its acceptance. -/
theorem step_acceptedCommand {s : State} {w : Word} {i : Instr} {rest : List Event} (hb : s.busy = false)
    (hr : s.rst = false) (hd : decode w = .op i) (he : s.events = .host (.write 0x30 8 w) :: rest) :
    step s = .next (respond .ok (acceptCommand i (takeEvents rest s))) := by
  have heffect : writeEffect .cmd w (takeEvents rest s) = acceptCommand i (takeEvents rest s) :=
    commandEffect_of_op hb hd
  rw [step_write .cmd w s rest he hr, heffect]

/-- R70: the write of any word to CMD of a busy block is rejected. -/
theorem step_rejectedCommand {s : State} {w : Word} {rest : List Event} (hb : s.busy = true) (hr : s.rst = false)
    (he : s.events = .host (.write 0x30 8 w) :: rest) :
    step s = .next (respond .ok (rejectCommand (takeEvents rest s))) := by
  have heffect : writeEffect .cmd w (takeEvents rest s) = rejectCommand (takeEvents rest s) :=
    commandEffect_of_busy w hb
  rw [step_write .cmd w s rest he hr, heffect]

/-- Settles O12: `exec_of_not_busy` for each command, and `step_acceptedCommand` for its write. -/
theorem commandAcceptance : Obligations.CommandAcceptance := fun _ hb =>
  ⟨exec_of_not_busy .add hb, exec_of_not_busy .sub hb, exec_of_not_busy .mul hb,
    fun _ _ _ hr hd he => step_acceptedCommand hb hr hd he⟩

/-- Settles O13: `exec_of_busy` for each command, and `step_rejectedCommand` for the write of any word. -/
theorem commandRejection : Obligations.CommandRejection := fun _ hb =>
  ⟨exec_of_busy .add hb, exec_of_busy .sub hb, exec_of_busy .mul hb,
    fun _ _ hr he => step_rejectedCommand hb hr he⟩

/-- Settles O14: `step_illegalCommand`. -/
theorem illegalCommandWrite : Obligations.IllegalCommandWrite := fun _ _ _ hb hr hd he =>
  step_illegalCommand hb hr he hd

/-- Every register of the window but STATUS shows A, B, R or 0 (R38). -/
theorem readReg_congr {s t : State} {reg : RegName} (ha : t.a = s.a) (hb : t.b = s.b)
    (hr : reg = .rLo ∨ reg = .rHi → t.r = s.r) (hreg : reg ≠ .status) : readReg reg t = readReg reg s := by
  cases reg with
  | aLo | aHi => simp only [readReg, ha]
  | bLo | bHi => simp only [readReg, hb]
  | rLo => simp only [readReg, hr (.inl rfl)]
  | rHi => simp only [readReg, hr (.inr rfl)]
  | cmd => rfl
  | status => exact absurd rfl hreg

/-- Settles O16: a rejection writes REJ alone, and an acceptance the snapshot, PEND_OP, UF and BUSY. -/
theorem commandFrame : Obligations.CommandFrame := by
  intro i s t _ h
  cases hb : s.busy with
  | true =>
    cases (exec_of_busy i hb).symm.trans h
    exact ⟨rfl, rfl, rfl, rfl, rfl, rfl, rfl, fun _ => readReg_congr rfl rfl fun _ => rfl,
      fun _ => ⟨rfl, rfl, rfl, hb, rfl⟩, nofun⟩
  | false =>
    cases (exec_of_not_busy i hb).symm.trans h
    exact ⟨rfl, rfl, rfl, rfl, rfl, rfl, rfl, fun _ => readReg_congr rfl rfl fun _ => rfl,
      nofun, fun _ => rfl⟩

/-! ## The outcome of a completion -/

/-- R77: a command's outcome as a function of its snapshot, `none` where it underflows. -/
def outcome (i : Instr) (x y : Wide) : Option Wide :=
  match i with
  | .add => some (add128 x y)
  | .sub => sub128 x y
  | .mul => some (mul128 x y)

/-- R72: the completion publishes the outcome. -/
theorem complete_of_outcome_some {s : State} {i : Instr} {d : Wide} (hp : s.pendOp = some i)
    (ho : outcome i s.opa s.opb = some d) : complete s = retireCommand (publishResult d s) := by
  cases i with
  | add =>
    cases ho
    simp only [complete, hp, completeAdd]
  | sub =>
    have hd : sub128 s.opa s.opb = some d := ho
    simp only [complete, hp, completeSub, hd]
  | mul =>
    cases ho
    simp only [complete, hp, completeMul]

/-- R87: a SUB of a smaller minuend is what underflows. -/
theorem outcome_eq_none_iff (i : Instr) (x y : Wide) : outcome i x y = none ↔ i = .sub ∧ x.val < y.val := by
  cases i <;> simp [outcome, sub128_eq_none_iff_val_lt]

/-- R72: with no outcome to publish the completion sets UF. -/
theorem complete_of_outcome_none {s : State} {i : Instr} (hp : s.pendOp = some i)
    (ho : outcome i s.opa s.opb = none) : complete s = retireCommand (setUf s) := by
  obtain ⟨rfl, -⟩ := (outcome_eq_none_iff i s.opa s.opb).1 ho
  have hd : sub128 s.opa s.opb = none := ho
  simp only [complete, hp, completeSub, hd]

/-- A completion, listed or not, is the step of a state that `CompletesCommand` (R72, R125). -/
theorem CompletesCommand.step_eq {s : State} (h : CompletesCommand s) :
    step s = .next (complete (takeEvents s.events.tail s)) := by
  obtain ⟨hb, hr, he | he⟩ := h
  · have hs : takeEvents s.events.tail s = s := by rw [he, List.tail_nil, ← he]; rfl
    rw [step_nil s he, hs, completeIfEnabled_of_enabled s hb hr]
  · obtain ⟨rest, he⟩ := List.head?_eq_some_iff.1 he
    rw [step_completion s rest he, he]
    exact congrArg _ (completeIfEnabled_of_enabled _ hb hr)

theorem CompletesCommand.step_eq_publish {s : State} {i : Instr} {d : Wide} (h : CompletesCommand s)
    (hp : s.pendOp = some i) (ho : outcome i s.opa s.opb = some d) :
    step s = .next (retireCommand (publishResult d (takeEvents s.events.tail s))) := by
  rw [h.step_eq, complete_of_outcome_some (s := takeEvents s.events.tail s) hp ho]

theorem CompletesCommand.step_eq_underflow {s : State} {i : Instr} (h : CompletesCommand s)
    (hp : s.pendOp = some i) (ho : outcome i s.opa s.opb = none) :
    step s = .next (retireCommand (setUf (takeEvents s.events.tail s))) := by
  rw [h.step_eq, complete_of_outcome_none (s := takeEvents s.events.tail s) hp ho]

/-- A listed completion of a busy block out of reset. -/
theorem completesCommand_of_events {s : State} {rest : List Event} (hb : s.busy = true) (hr : s.rst = false)
    (he : s.events = .completion :: rest) : CompletesCommand s :=
  ⟨hb, hr, .inr (by rw [he]; rfl)⟩

/-- Settles O17: a listed completion publishes the pending command's outcome or sets UF, and an idle block has nothing
to complete. -/
theorem completionWritesOutcome : Obligations.CompletionWritesOutcome := by
  intro s rest hr he
  have hcompletes (hb : s.busy = true) := completesCommand_of_events hb hr he
  have htail : s.events.tail = rest := by rw [he]; rfl
  refine ⟨fun hb => ?_, fun hb hp => ?_, fun hb hp => ?_, fun hb hp => ⟨fun hd => ?_, fun d hd => ?_⟩⟩
  · rw [step_completion s rest he, completeIfEnabled_of_not_busy (takeEvents rest s) hb]
    rfl
  · rw [(hcompletes hb).step_eq_publish hp rfl, htail]
    rfl
  · rw [(hcompletes hb).step_eq_publish hp rfl, htail]
    rfl
  · rw [(hcompletes hb).step_eq_underflow hp hd, htail]
    rfl
  · rw [(hcompletes hb).step_eq_publish hp hd, htail]
    rfl

/-- Settles O18: besides ending the command, publishing writes R alone and an underflow, a SUB's, writes UF alone. -/
theorem completionFrame : Obligations.CompletionFrame := by
  intro s t hc hcommand h
  obtain ⟨i, hp⟩ : ∃ i, s.pendOp = some i := by
    obtain hp | hp | hp := hcommand <;> exact ⟨_, hp⟩
  cases ho : outcome i s.opa s.opb with
  | some d =>
    cases (hc.step_eq_publish hp ho).symm.trans h
    exact ⟨rfl, rfl, rfl, rfl, rfl, rfl, rfl, rfl, rfl,
      fun _ hlo hhi => readReg_congr rfl rfl fun hreg => absurd hreg (not_or.2 ⟨hlo, hhi⟩), fun _ => rfl,
      fun huf huf' => absurd (huf.symm.trans huf') Bool.false_ne_true⟩
  | none =>
    cases (hc.step_eq_underflow hp ho).symm.trans h
    refine ⟨rfl, rfl, rfl, rfl, rfl, rfl, rfl, rfl, rfl,
      fun _ _ _ => readReg_congr rfl rfl fun _ => rfl, fun hsub => ?_, fun _ _ => rfl⟩
    obtain ⟨rfl, -⟩ := (outcome_eq_none_iff i s.opa s.opb).1 ho
    exact absurd hp hsub

/-- Settles O25: both states have the one outcome, publish it with UF still clear (R23), or both set UF. -/
theorem outcomeDependsOnlyOnSnapshot : Obligations.OutcomeDependsOnlyOnSnapshot := by
  intro s s' t t' hs hs' hc hc' hpend hopa hopb h h'
  have ⟨hb, _⟩ := hc
  have ⟨hb', _⟩ := hc'
  obtain ⟨i, hp⟩ := hs.exists_pendOp hb
  have hp' : s'.pendOp = some i := hpend ▸ hp
  cases ho : outcome i s.opa s.opb with
  | some d =>
    have ho' : outcome i s'.opa s'.opb = some d := by rw [← hopa, ← hopb, ho]
    cases (hc.step_eq_publish hp ho).symm.trans h
    cases (hc'.step_eq_publish hp' ho').symm.trans h'
    simp [hs.ufClear hb, hs'.ufClear hb']
  | none =>
    have ho' : outcome i s'.opa s'.opb = none := by rw [← hopa, ← hopb, ho]
    cases (hc.step_eq_underflow hp ho).symm.trans h
    cases (hc'.step_eq_underflow hp' ho').symm.trans h'
    simp

/-- Settles O57: with no event the step is a completion, which an idle block does not perform. -/
theorem idleBlockHasNoStep : Obligations.IdleBlockHasNoStep := by
  intro s hb he
  rw [step_nil s he, completeIfEnabled_of_not_busy s hb]

/-! ## From request to completion -/

/-- A run goes on from the state it has come to. -/
theorem runSteps_add {m : Nat} (n : Nat) {s t : State} (h : runSteps m s = .next t) :
    runSteps (m + n) s = runSteps n t := by
  induction m generalizing s with
  | zero =>
    cases h
    rw [Nat.zero_add]
  | succ m ih =>
    rw [Nat.succ_add]
    rw [runSteps] at h ⊢
    cases hs : step s with
    | next u =>
      rw [hs] at h
      exact ih h
    | fault f => rw [hs] at h; cases h
    | refused f => rw [hs] at h; cases h

theorem runSteps_one {s t : State} (h : step s = .next t) : runSteps 1 s = .next t := by
  simp only [runSteps, h]

/-- With no change of `rst` listed, transactions come first and then a completion or nothing (R73). -/
theorem NoReset.exists_transactions_append {es : List Event} (h : NoReset es) :
    ∃ (ts : List Transaction) (rest : List Event), es = ts.map Event.host ++ rest ∧
      (rest = [] ∨ rest.head? = some .completion) := by
  induction es with
  | nil => exact ⟨[], [], rfl, .inl rfl⟩
  | cons e es ih =>
    cases e with
    | host x =>
      obtain ⟨ts, rest, rfl, hrest⟩ := ih fun level hmem => h level (List.mem_cons_of_mem _ hmem)
      exact ⟨x :: ts, rest, rfl, hrest⟩
    | completion => exact ⟨[], _, rfl, .inr rfl⟩
    | rst level => exact absurd List.mem_cons_self (h level)

/-- Settles O22: the transactions before the first completion leave the command pending, and then it completes. -/
theorem completionHappens : Obligations.CompletionHappens := by
  intro s _ hb hr hnr
  obtain ⟨ts, rest, he, hrest⟩ := hnr.exists_transactions_append
  obtain ⟨t, hrun, het, hrt, same⟩ := runSteps_transactions_keep_pending ts rest hb hr he
  have hc : CompletesCommand t := ⟨same.busy.trans hb, hrt, by rwa [CompletesNext, het]⟩
  obtain ⟨-, -, -, -, -, -, -, -, -, hbusy, hpend⟩ := complete_frame (takeEvents t.events.tail t)
  exact ⟨ts.length, t, _, by simp [he], hrun, hc, same.pendOp, same.opa, same.opb, same.r, same.uf, hc.step_eq,
    hbusy, hpend⟩

/-- R69, R72, R74: a command from its write to its completion, with any transactions between: nothing is left pending,
and R and UF are those of the outcome for the operands at acceptance. -/
theorem runSteps_command {s : State} {i : Instr} {ts : List Transaction} {rest : List Event} (hb : s.busy = false)
    (hr : s.rst = false)
    (he : s.events = .host (.write 0x30 8 (encode i)) :: (ts.map Event.host ++ .completion :: rest)) :
    ∃ u, runSteps (ts.length + 2) s = .next u ∧ u.events = rest ∧ u.busy = false ∧ u.pendOp = none ∧
      u.r = (outcome i s.a s.b).getD s.r ∧ u.uf = (outcome i s.a s.b).isNone := by
  have haccept := step_acceptedCommand hb hr (decode_encode i) he
  obtain ⟨t, hrun, het, hrt, same⟩ := runSteps_transactions_keep_pending ts (.completion :: rest)
    (s := respond .ok (acceptCommand i (takeEvents (ts.map Event.host ++ .completion :: rest) s))) rfl hr rfl
  have hc : CompletesCommand t := completesCommand_of_events same.busy hrt het
  have hlen : ts.length + 2 = 1 + (ts.length + 1) := by omega
  have hrunu {u : State} (hu : step t = .next u) : runSteps (ts.length + 2) s = .next u := by
    rw [hlen, runSteps_add _ (runSteps_one haccept), runSteps_add _ hrun, runSteps_one hu]
  have hout : outcome i t.opa t.opb = outcome i s.a s.b := by rw [same.opa, same.opb]; rfl
  have htail : t.events.tail = rest := by rw [het]; rfl
  cases ho : outcome i s.a s.b with
  | some d =>
    exact ⟨_, hrunu (hc.step_eq_publish same.pendOp (hout.trans ho)), htail, rfl, rfl, rfl, same.uf⟩
  | none =>
    exact ⟨_, hrunu (hc.step_eq_underflow same.pendOp (hout.trans ho)), htail, rfl, rfl, same.r, rfl⟩

/-- Settles O24: `runSteps_command`, with the outcome of each command spelled out. -/
theorem outcomeAfterAnyTransactions : Obligations.OutcomeAfterAnyTransactions := by
  intro s i ts rest hb hr he
  obtain ⟨u, hrun, heu, hbu, hpu, hru, huf⟩ := runSteps_command hb hr he
  refine ⟨u, hrun, heu, hbu, hpu, ?_, ?_, ?_⟩
  · rintro rfl
    exact ⟨hru, huf⟩
  · rintro rfl
    exact ⟨hru, huf⟩
  · rintro rfl
    refine ⟨fun hd => ?_, fun d hd => ?_⟩ <;> simpa [outcome, hd] using And.intro hru huf

end Sys2Proof.Machine
end

section
/-! PROOFS. ADD and MUL as sums of natural numbers modulo 2^128 (41_add R83; 43_mul R93 to R98), and the MUL command. -/

namespace Sys2Proof.Machine

/-! ## ADD -/

/-- R83: the closed form of ADD. The carry is what the low words' sum leaves above the word boundary. -/
theorem add128_val (x y : Wide) : (add128 x y).val = (x.val + y.val) % 2 ^ 128 := by
  have hxlo := x.lo.isLt
  have hylo := y.lo.isLt
  rw [Wide.val, add128_lo_toNat, add128_hi_toNat, addCarry, Wide.val, Wide.val]
  split <;> omega

/-! ## One turn of MUL -/

/-- R95: an add into the high word alone. -/
theorem addHigh_val_modEq (t : Word) (acc : Wide) :
    (addHigh t acc).val ≡ acc.val + t.toNat * 2 ^ 64 [MOD 2 ^ 128] := by
  simp only [Nat.ModEq, addHigh, Wide.val, BitVec.toNat_add]
  omega

/-- R95: the low word's add carries into the high word. -/
theorem addLow_val_modEq (x : Wide) (i : Nat) (acc : Wide) :
    (addLow x i acc).val ≡ acc.val + (x.lo <<< i).toNat [MOD 2 ^ 128] := by
  rw [addLow, add128_val]
  simp [Wide.val, Nat.ModEq]

/-- R94: a shift by 64 leaves nothing, so the boundary term needs no case for bit 0. -/
theorem boundaryTerm_eq (x : Wide) (i : Nat) : boundaryTerm x i = (x.hi <<< i) + (x.lo >>> (64 - i)) := by
  obtain rfl | hi := Nat.eq_zero_or_pos i
  · simp [boundaryTerm, BitVec.ushiftRight_eq_zero]
  · rw [boundaryTerm, if_pos hi]

/-- R94: the shifted low word and the boundary term are the two words of `x * 2^i`, modulo 2^128. -/
theorem shifted_words_modEq (x : Wide) {i : Nat} (hi : i < 64) :
    (x.lo <<< i).toNat + (boundaryTerm x i).toNat * 2 ^ 64 ≡ x.val * 2 ^ i [MOD 2 ^ 128] := by
  have hdiv : x.lo.toNat / 2 ^ (64 - i) = x.lo.toNat * 2 ^ i / 2 ^ 64 := by
    rw [← Nat.mul_div_mul_right _ _ (Nat.two_pow_pos i), ← Nat.pow_add, Nat.sub_add_cancel hi.le]
  have hval : x.val * 2 ^ i = x.lo.toNat * 2 ^ i + x.hi.toNat * 2 ^ i * 2 ^ 64 := by
    rw [Wide.val]
    ring
  simp only [boundaryTerm_eq, BitVec.toNat_add, BitVec.toNat_shiftLeft, BitVec.toNat_ushiftRight,
    Nat.shiftLeft_eq, Nat.shiftRight_eq_div_pow, hdiv, hval, Nat.ModEq]
  generalize x.lo.toNat * 2 ^ i = lo
  generalize x.hi.toNat * 2 ^ i = hi
  omega

/-- R98: above the word boundary only the low word's shift is left. -/
theorem shifted_low_word_modEq (x : Wide) (i : Nat) :
    (x.lo <<< i).toNat * 2 ^ 64 ≡ x.val * 2 ^ 64 * 2 ^ i [MOD 2 ^ 128] := by
  have hval : x.val * 2 ^ 64 * 2 ^ i = x.lo.toNat * 2 ^ i * 2 ^ 64 + x.hi.toNat * 2 ^ i * 2 ^ 128 := by
    rw [Wide.val]
    ring
  simp only [BitVec.toNat_shiftLeft, Nat.shiftLeft_eq, hval, Nat.ModEq]
  generalize x.lo.toNat * 2 ^ i = lo
  generalize x.hi.toNat * 2 ^ i = hi
  omega

/-- R93: a turn for bit `i` of `b.lo` adds `a * 2^i` where the bit is set. -/
theorem mulLowStep_val_modEq (x y acc : Wide) {i : Nat} (hi : i < 64) :
    (mulLowStep x y acc i).val ≡ acc.val + x.val * (2 ^ i * (y.lo.getLsbD i).toNat) [MOD 2 ^ 128] := by
  cases hbit : y.lo.getLsbD i with
  | false => simp [mulLowStep, hbit, Nat.ModEq]
  | true =>
    have hhigh := (addHigh_val_modEq (boundaryTerm x i) acc).add_right (x.lo <<< i).toNat
    have hshift := (shifted_words_modEq x hi).add_left acc.val
    simp only [mulLowStep, hbit, if_true, Bool.toNat_true, mul_one]
    refine (addLow_val_modEq x i _).trans (hhigh.trans ?_)
    rwa [Nat.add_assoc, Nat.add_comm (_ * _)]

/-- R93, R98: a turn for bit `i` of `b.hi` adds `a * 2^(64 + i)` where the bit is set. -/
theorem mulHighStep_val_modEq (x y acc : Wide) (i : Nat) :
    (mulHighStep x y acc i).val ≡ acc.val + x.val * 2 ^ 64 * (2 ^ i * (y.hi.getLsbD i).toNat) [MOD 2 ^ 128] := by
  cases hbit : y.hi.getLsbD i with
  | false => simp [mulHighStep, hbit, Nat.ModEq]
  | true =>
    simp only [mulHighStep, hbit, if_true, Bool.toNat_true, mul_one]
    exact (addHigh_val_modEq (x.lo <<< i) acc).trans ((shifted_low_word_modEq x i).add_left acc.val)

/-! ## The two loops of MUL -/

/-- A loop whose turns add `m * 2^i` for the set bits `i` of `w` has after `n` turns added `m` times the low `n` bits
of `w`. -/
theorem foldl_turns_val_modEq {turn : Wide → Nat → Wide} {m : Nat} {w : Word} (acc : Wide) {n : Nat} (hn : n ≤ 64)
    (hturn : ∀ acc i, i < 64 → (turn acc i).val ≡ acc.val + m * (2 ^ i * (w.getLsbD i).toNat) [MOD 2 ^ 128]) :
    ((List.range n).foldl turn acc).val ≡ acc.val + m * (w.toNat % 2 ^ n) [MOD 2 ^ 128] := by
  induction n with
  | zero => simp [Nat.mod_one, Nat.ModEq]
  | succ n ih =>
    have hlast := hturn ((List.range n).foldl turn acc) n (by omega)
    have hprev := (ih (by omega)).add_right (m * (2 ^ n * (w.getLsbD n).toNat))
    rw [List.range_succ, List.foldl_append, List.foldl_cons, List.foldl_nil, Nat.mod_pow_succ, ← Nat.toNat_testBit,
      BitVec.testBit_toNat, Nat.mul_add, ← Nat.add_assoc]
    exact hlast.trans hprev

/-- R97: the closed form of MUL. The loops add the product with each word of the multiplier. -/
theorem mul128_val (x y : Wide) : (mul128 x y).val = (x.val * y.val) % 2 ^ 128 := by
  have hlow := foldl_turns_val_modEq Wide.zero (le_refl 64) fun acc i hi => mulLowStep_val_modEq x y acc hi
  have hhigh := foldl_turns_val_modEq ((List.range 64).foldl (mulLowStep x y) Wide.zero) (le_refl 64)
    fun acc i _ => mulHighStep_val_modEq x y acc i
  rw [Nat.mod_eq_of_lt (BitVec.isLt _)] at hlow hhigh
  have hzero : Wide.zero.val = 0 := rfl
  have hsum : Wide.zero.val + x.val * y.lo.toNat + x.val * 2 ^ 64 * y.hi.toNat = x.val * y.val := by
    have hy : y.val = y.lo.toNat + y.hi.toNat * 2 ^ 64 := rfl
    rw [hzero, hy]
    ring
  have hmod : (mul128 x y).val ≡ x.val * y.val [MOD 2 ^ 128] := hsum ▸ hhigh.trans (hlow.add_right _)
  rw [← Nat.mod_eq_of_lt (mul128 x y).val_lt]
  exact hmod

/-- Settles O21: acceptance, then the completion publishes the product of the snapshot (`mul128_val`). -/
theorem mulCommandComputesProduct : Obligations.MulCommandComputesProduct := by
  intro s rest hb hr
  have hc : CompletesCommand { acceptCommand .mul s with events := .completion :: rest } :=
    completesCommand_of_events rfl hr rfl
  exact ⟨rfl, acceptCommand .mul s, _, mul128 s.a s.b, exec_of_not_busy .mul hb, rfl, hc.step_eq_publish rfl rfl, rfl,
    mul128_val s.a s.b, rfl⟩

end Sys2Proof.Machine
end

section
/-! PROOFS. ADD: its carry, its closed form, its laws and the ADD command (41_add R81 to R85). -/

namespace Sys2Proof.Machine

/-! ## The carry and the words -/

/-- R82: the carry tests the untruncated sum of the low words. -/
theorem addCarry_eq_one_iff (x y : Wide) : addCarry x y = 1 ↔ 2 ^ 64 ≤ x.lo.toNat + y.lo.toNat := by
  rw [addCarry]
  split <;> omega

/-- R82: a carry is a single bit. -/
theorem addCarry_eq_zero_or_one (x y : Wide) : addCarry x y = 0 ∨ addCarry x y = 1 := by
  rw [addCarry]
  split
  · exact .inr rfl
  · exact .inl rfl

/-- R82: a sum of two words wraps exactly when what is left of it is less than either word. -/
theorem addCarry_eq_one_iff_lt (x y : Wide) : addCarry x y = 1 ↔ x.lo + y.lo < x.lo := by
  have hx := x.lo.isLt
  have hy := y.lo.isLt
  rw [addCarry_eq_one_iff, BitVec.lt_def, BitVec.toNat_add]
  omega

/-- R81: the low word is the wrapping sum, without the carry. -/
theorem add128_lo (x y : Wide) : (add128 x y).lo = x.lo + y.lo :=
  BitVec.eq_of_toNat_eq (by rw [add128_lo_toNat, BitVec.toNat_add])

/-- R81: the high word is the wrapping sum with the carry. -/
theorem add128_hi (x y : Wide) : (add128 x y).hi = x.hi + y.hi + BitVec.ofNat 64 (addCarry x y) :=
  BitVec.eq_of_toNat_eq (by
    simp only [add128_hi_toNat, BitVec.toNat_add, BitVec.toNat_ofNat, Nat.mod_add_mod, Nat.add_mod_mod])

/-- Settles O41: the two tests of the carry and the words it enters; the completion of an ADD is a clause of O17. -/
theorem addCarryRule : Obligations.AddCarryRule := by
  refine ⟨fun x y => ⟨addCarry_eq_one_iff x y, addCarry_eq_one_iff_lt x y, addCarry_eq_zero_or_one x y,
    add128_lo x y, add128_hi x y⟩, fun s rest hb hr hp he => ?_⟩
  obtain ⟨-, hadd, -⟩ := completionWritesOutcome s rest hr he
  exact hadd hb hp

/-! ## The closed form and the laws -/

/-- Settles O42: `add128_val`. -/
theorem addClosedForm : Obligations.AddClosedForm := add128_val

/-- R85: commutative, as the sum of the numbers is. -/
theorem add128_comm (x y : Wide) : add128 x y = add128 y x :=
  Wide.val_injective (by rw [add128_val, add128_val, Nat.add_comm])

/-- R85: associative, as the sum of the numbers is: an inner reduction modulo 2^128 does not change the outer one. -/
theorem add128_assoc (x y z : Wide) : add128 (add128 x y) z = add128 x (add128 y z) :=
  Wide.val_injective (by simp only [add128_val, Nat.mod_add_mod, Nat.add_mod_mod, Nat.add_assoc])

/-- R85: adding 0 changes nothing, a value being below the modulus. -/
theorem add128_zero (x : Wide) : add128 x Wide.zero = x := by
  have hzero : Wide.zero.val = 0 := rfl
  exact Wide.val_injective (by rw [add128_val, hzero, Nat.add_zero, Nat.mod_eq_of_lt x.val_lt])

/-- R90: a difference and its subtrahend make up the minuend, exactly. Where the low word borrows, one unit of the high
word pays for the `2^64` that the low word gains. -/
theorem sub128_val_add {x y d : Wide} (h : sub128 x y = some d) : d.val + y.val = x.val := by
  have hxlo := x.lo.isLt
  have hxhi := x.hi.isLt
  have hylo := y.lo.isLt
  unfold sub128 at h
  split_ifs at h with hless hequal hborrow
  · cases h
    simp only [Wide.val, BitVec.toNat_ofNat]
    omega
  · cases h
    simp only [Wide.val, BitVec.toNat_ofNat]
    omega

/-- R85: adding the subtrahend back undoes a SUB, the sum being a value and so below the modulus. -/
theorem add128_sub128 {x y d : Wide} (h : sub128 x y = some d) : add128 d y = x :=
  Wide.val_injective (by rw [add128_val, sub128_val_add h, Nat.mod_eq_of_lt x.val_lt])

/-- R87: SUB has a difference whenever the minuend is not the smaller. -/
theorem exists_sub128_of_val_le {x y : Wide} (h : y.val ≤ x.val) : ∃ d, sub128 x y = some d :=
  Option.ne_none_iff_exists'.1 (mt (sub128_eq_none_iff_val_lt x y).1 (Nat.not_lt.2 h))

/-- Settles O44: the laws of the sum of numbers, carried over by `add128_val`. -/
theorem addLaws : Obligations.AddLaws := by
  refine ⟨add128_comm, add128_assoc, fun x y hle => ?_, add128_zero⟩
  obtain ⟨d, hd⟩ := exists_sub128_of_val_le hle
  exact ⟨d, hd, add128_sub128 hd⟩

/-! ## The ADD command -/

/-- R84: beyond 2^128 the modulus is taken off once, two values making less than twice it. -/
theorem add128_val_of_wraps {x y : Wide} (h : 2 ^ 128 ≤ x.val + y.val) :
    (add128 x y).val + 2 ^ 128 = x.val + y.val := by
  have hx := x.val_lt
  have hy := y.val_lt
  rw [add128_val]
  omega

/-- Settles O43: `add128_val_of_wraps`; the completion publishes the sum and ends the command, and writes no other
flag. -/
theorem addWrapsSilently : Obligations.AddWrapsSilently :=
  ⟨fun _ _ => add128_val_of_wraps, fun _ hc hp => ⟨_, hc.step_eq_publish hp rfl, rfl, rfl, rfl, rfl, rfl⟩⟩

/-- Settles O19: acceptance, then the completion publishes the sum of the snapshot, whose words are
`add128_lo_toNat` and `add128_hi_toNat`. -/
theorem addCommandComputesSum : Obligations.AddCommandComputesSum := by
  intro s rest hb hr
  have hc : CompletesCommand { acceptCommand .add s with events := .completion :: rest } :=
    completesCommand_of_events rfl hr rfl
  exact ⟨rfl, acceptCommand .add s, _, add128 s.a s.b, exec_of_not_busy .add hb, rfl, hc.step_eq_publish rfl rfl, rfl,
    add128_lo_toNat s.a s.b, add128_hi_toNat s.a s.b, rfl⟩

end Sys2Proof.Machine
end

section
/-! PROOFS. SUB: the words it borrows, its closed form, its laws and the SUB command (42_sub R86 to R92). -/

namespace Sys2Proof.Machine

/-! ## The closed form and the laws -/

/-- R90: the difference is the one value that makes up the minuend together with the subtrahend. -/
theorem sub128_eq_some_iff (x y d : Wide) : sub128 x y = some d ↔ d.val + y.val = x.val := by
  refine ⟨sub128_val_add, fun h => ?_⟩
  obtain ⟨e, he⟩ := exists_sub128_of_val_le (h ▸ Nat.le_add_left y.val d.val)
  have hval : e.val = d.val := Nat.add_right_cancel ((sub128_val_add he).trans h.symm)
  rw [he, Wide.val_injective hval]

/-- Settles O45: `sub128_eq_none_iff_val_lt`. -/
theorem subUnderflowsExactlyWhenLess : Obligations.SubUnderflowsExactlyWhenLess := sub128_eq_none_iff_val_lt

/-- Settles O47: a minuend that is not smaller has a difference, and `sub128_val_add` gives its number. -/
theorem subClosedForm : Obligations.SubClosedForm := by
  refine fun x y => ⟨fun hle => ?_, (sub128_eq_none_iff_val_lt x y).2⟩
  obtain ⟨d, hd⟩ := exists_sub128_of_val_le hle
  exact ⟨d, hd, Nat.eq_sub_of_add_eq (sub128_val_add hd)⟩

/-- Settles O49: the laws of the difference of numbers, carried over by `sub128_eq_some_iff`; only 0 is not greater
than 0. -/
theorem subLaws : Obligations.SubLaws := by
  refine ⟨fun x y hle => ?_, fun x y => (sub128_eq_none_iff_val_lt x y).2, fun x => ?_, fun x => ?_, fun y hne => ?_⟩
  · obtain ⟨d, hd⟩ := exists_sub128_of_val_le hle
    exact ⟨d, hd, add128_sub128 hd⟩
  · exact (sub128_eq_some_iff x x Wide.zero).2 (Nat.zero_add x.val)
  · exact (sub128_eq_some_iff x Wide.zero x).2 (Nat.add_zero x.val)
  · have hval : y.val ≠ 0 := Wide.val_injective.ne (a₂ := Wide.zero) hne
    exact (sub128_eq_none_iff_val_lt Wide.zero y).2 (Nat.pos_of_ne_zero hval)

/-! ## The words of the difference -/

/-- R86 steps 1 and 2: the tests on the words that find the smaller minuend. -/
theorem sub128_eq_none_iff_words (x y : Wide) :
    sub128 x y = none ↔
      x.hi.toNat < y.hi.toNat ∨ (x.hi.toNat = y.hi.toNat ∧ x.lo.toNat < y.lo.toNat) := by
  rw [sub128_eq_none_iff_val_lt, Wide.val_lt_val_iff, BitVec.lt_def, BitVec.lt_def, BitVec.toNat_inj]

/-- R86 step 3, R89: the words after a borrow, exact, the high word that is borrowed from being at least 1. -/
theorem sub128_words_of_borrow {x y d : Wide} (h : sub128 x y = some d) (hlo : x.lo.toNat < y.lo.toNat) :
    d.lo.toNat = (2 ^ 64 - y.lo.toNat) + x.lo.toNat ∧ 1 ≤ x.hi.toNat ∧
      d.hi.toNat + y.hi.toNat = x.hi.toNat - 1 := by
  have hval := sub128_val_add h
  have hd := d.lo.isLt
  have hy := y.lo.isLt
  simp only [Wide.val] at hval
  omega

/-- R86 step 4, R89: without a borrow each word is the exact difference of the words. -/
theorem sub128_words_of_no_borrow {x y d : Wide} (h : sub128 x y = some d) (hlo : ¬x.lo.toNat < y.lo.toNat) :
    d.lo.toNat + y.lo.toNat = x.lo.toNat ∧ d.hi.toNat + y.hi.toNat = x.hi.toNat := by
  have hval := sub128_val_add h
  have hd := d.lo.isLt
  have hx := x.lo.isLt
  simp only [Wide.val] at hval
  omega

/-- R88: a borrow takes its unit off the minuend's high word before the subtrahend's, and the low word wraps. -/
theorem sub128_wrapping_words_of_borrow {x y d : Wide} (h : sub128 x y = some d) (hlo : x.lo < y.lo) :
    d.hi = x.hi - 1 - y.hi ∧ d.lo = x.lo - y.lo := by
  obtain ⟨hdlo, hone, hdhi⟩ := sub128_words_of_borrow h hlo
  constructor <;> bv_omega

/-! ## The SUB command -/

/-- Settles O46: a greater high word cannot underflow, the borrow's words are `sub128_wrapping_words_of_borrow`, and a
completion leaves A, B and OPA (`complete_frame`). -/
theorem subBorrowsFromTheCopy : Obligations.SubBorrowsFromTheCopy := by
  refine ⟨fun x y hlo hhi => ?_, fun s hc _ => ?_⟩
  · have hle : y.val ≤ x.val := ((Wide.val_lt_val_iff y x).2 (.inl hhi)).le
    obtain ⟨d, hd⟩ := exists_sub128_of_val_le hle
    exact ⟨d, hd, sub128_wrapping_words_of_borrow hd hlo⟩
  · obtain ⟨ha, hb, -, -, hopa, -⟩ := complete_frame (takeEvents s.events.tail s)
    exact ⟨_, hc.step_eq, ha, hb, hopa⟩

/-- Settles O48: a smaller minuend has no outcome, and the completion of an underflow writes UF alone. -/
theorem subNeverWraps : Obligations.SubNeverWraps := fun s hc hp hlt =>
  hc.step_eq_underflow hp ((outcome_eq_none_iff .sub s.opa s.opb).2 ⟨rfl, hlt⟩)

/-- Settles O20: acceptance, then the completion sets UF where the first two tests find the smaller minuend, and else
publishes the difference of the snapshot, by its words with or without a borrow. -/
theorem subCommandComputesDifference : Obligations.SubCommandComputesDifference := by
  intro s rest hb hr
  have hc : CompletesCommand { acceptCommand .sub s with events := .completion :: rest } :=
    completesCommand_of_events rfl hr rfl
  refine ⟨rfl, acceptCommand .sub s, ?_⟩
  cases hd : sub128 s.a s.b with
  | none =>
    refine ⟨_, exec_of_not_busy .sub hb, rfl, hc.step_eq_underflow rfl hd, ?_⟩
    rw [if_pos ((sub128_eq_none_iff_words s.a s.b).1 hd)]
    rfl
  | some d =>
    have hwords := mt (sub128_eq_none_iff_words s.a s.b).2 (by simp [hd])
    refine ⟨_, exec_of_not_busy .sub hb, rfl, hc.step_eq_publish rfl hd, ?_⟩
    rw [if_neg hwords]
    refine ⟨d, rfl, rfl, ?_⟩
    split
    next hlo => exact sub128_words_of_borrow hd hlo
    next hlo => exact sub128_words_of_no_borrow hd hlo

end Sys2Proof.Machine
end

section
/-! PROOFS. MUL: its boundary term, the order of its turns, its closed form and its laws (43_mul R94 to R99). -/

namespace Sys2Proof.Machine

/-! ## The words of the shifted operand -/

/-- R94: the boundary term is the high word of the operand shifted as a 128-bit value, the low word's shift being the
other word of it. -/
theorem boundaryTerm_toNat (x : Wide) {i : Nat} (hi : i < 64) :
    (boundaryTerm x i).toNat = (x.val * 2 ^ i % 2 ^ 128) / 2 ^ 64 := by
  have hval : x.val * 2 ^ i % 2 ^ 128 = Wide.val { lo := x.lo <<< i, hi := boundaryTerm x i } :=
    Nat.mod_eq_of_modEq (shifted_words_modEq x hi).symm (Wide.val_lt _)
  rw [hval, Wide.val_div_word]

/-- R94: the shift leaves the bits below it clear. -/
theorem shiftLeft_low_bits_clear (w : Word) {i j : Nat} (hj : j < i) : (w <<< i).getLsbD j = false := by
  simp [BitVec.getLsbD_shiftLeft, hj]

/-- R94: at most `i` bits leave the low word. -/
theorem shifted_out_lt (w : Word) {i : Nat} (hi : i < 64) : (w >>> (64 - i)).toNat < 2 ^ i := by
  have hlt := BitVec.toNat_ushiftRight_lt w (64 - i) (Nat.sub_le 64 i)
  rwa [Nat.sub_sub_self hi.le] at hlt

/-- R94: the two addends of the boundary term share no bit. -/
theorem boundary_addends_disjoint (x : Wide) {i : Nat} (hi : i < 64) :
    (x.hi <<< i) &&& (x.lo >>> (64 - i)) = 0#64 := by
  refine BitVec.eq_of_getLsbD_eq fun j _ => ?_
  rw [BitVec.getLsbD_and, BitVec.getLsbD_zero]
  obtain hj | hj := Nat.lt_or_ge j i
  · rw [shiftLeft_low_bits_clear x.hi hj, Bool.false_and]
  · rw [BitVec.getLsbD_ushiftRight, BitVec.getLsbD_of_ge x.lo _ (by omega), Bool.and_false]

/-- Settles O50: the term is a word of the shifted operand (`boundaryTerm_toNat`), and addends that share no bit make
the same sum as their OR, without a carry out of the word. -/
theorem mulBoundaryTerm : Obligations.MulBoundaryTerm := by
  refine fun x i hi => ⟨boundaryTerm_toNat x hi, by simp [boundaryTerm], fun _ => ?_⟩
  have hdisj := boundary_addends_disjoint x hi
  refine ⟨boundaryTerm_eq x i, ?_, shifted_out_lt x.lo hi, fun j => shiftLeft_low_bits_clear x.hi, ?_⟩
  · rw [boundaryTerm_eq, BitVec.add_eq_or_of_and_eq_zero _ _ hdisj]
  · rw [← BitVec.toNat_add_of_and_eq_zero hdisj]
    exact BitVec.isLt _

/-! ## The order of the turns -/

/-- R85: summands may change places. -/
theorem add128_right_comm (x y z : Wide) : add128 (add128 x y) z = add128 (add128 x z) y := by
  rw [add128_assoc, add128_comm y z, ← add128_assoc]

/-- R85: 0 is neutral on the left too. -/
theorem zero_add128 (x : Wide) : add128 Wide.zero x = x := (add128_comm Wide.zero x).trans (add128_zero x)

/-- R95: an add into the high word alone is an ADD of a value without a low word, which has no carry. -/
theorem addHigh_eq_add128 (t : Word) (acc : Wide) : addHigh t acc = add128 acc { lo := 0, hi := t } := by
  refine Wide.val_injective (Nat.ModEq.eq_of_lt_of_lt (m := 2 ^ 128) ?_ (Wide.val_lt _) (Wide.val_lt _))
  rw [add128_val]
  simpa [Wide.val, Nat.ModEq] using addHigh_val_modEq t acc

/-- R96: the high-word add and the `add128` of a bit may change places, both being ADDs. -/
theorem addLow_addHigh_comm (x : Wide) (i : Nat) (t : Word) (acc : Wide) :
    addLow x i (addHigh t acc) = addHigh t (addLow x i acc) := by
  simp only [addLow, addHigh_eq_add128, add128_right_comm]

/-- One turn of MUL, for a bit of `b.hi` (`true`) or of `b.lo` (`false`). -/
def mulTurn (x y acc : Wide) (p : Bool × Nat) : Wide :=
  if p.1 = true then mulHighStep x y acc p.2 else mulLowStep x y acc p.2

/-- What one turn of MUL adds to the accumulator: a turn from 0. -/
def turnAddend (x y : Wide) (p : Bool × Nat) : Wide := mulTurn x y Wide.zero p

/-- R96: a turn is an ADD of a value that does not depend on the accumulator. -/
theorem mulTurn_eq_add128 (x y acc : Wide) (p : Bool × Nat) :
    mulTurn x y acc p = add128 acc (turnAddend x y p) := by
  unfold turnAddend mulTurn mulHighStep mulLowStep addLow
  split_ifs
  · rw [addHigh_eq_add128, addHigh_eq_add128, zero_add128]
  · rw [add128_zero]
  · rw [addHigh_eq_add128, addHigh_eq_add128, zero_add128, add128_assoc]
  · rw [add128_zero]

/-- R96: turns of MUL may change places. -/
theorem mulTurn_right_comm (x y acc : Wide) (p q : Bool × Nat) :
    mulTurn x y (mulTurn x y acc p) q = mulTurn x y (mulTurn x y acc q) p := by
  simp only [mulTurn_eq_add128, add128_right_comm]

/-- R93: MUL is the turns of the bits of `b.lo` and then of `b.hi`. -/
theorem mul128_eq_foldl_mulTurn (x y : Wide) :
    mul128 x y = (((List.range 64).map fun i => (false, i)) ++ (List.range 64).map fun i => (true, i)).foldl
      (mulTurn x y) Wide.zero := by
  rw [List.foldl_append, List.foldl_map, List.foldl_map]
  rfl

/-- Settles O51: a permutation of turns that may change places pairwise, and `addLow_addHigh_comm` within a bit. -/
theorem mulOrderIrrelevant : Obligations.MulOrderIrrelevant := by
  refine ⟨fun x y bits hperm => ?_, fun x acc i => addLow_addHigh_comm x i (boundaryTerm x i) acc⟩
  rw [mul128_eq_foldl_mulTurn]
  exact hperm.foldl_eq' (fun p _ q _ acc => mulTurn_right_comm x y acc p q) Wide.zero

/-! ## The bits of `b.hi` -/

/-- R93: a set bit of `b.hi` adds the low word's shift into the high word. -/
theorem mulHighStep_of_bit_set (x acc : Wide) {y : Wide} {i : Nat} (hbit : y.hi.getLsbD i = true) :
    mulHighStep x y acc i = addHigh (x.lo <<< i) acc :=
  if_pos hbit

/-- R93: a clear bit of `b.hi` adds nothing. -/
theorem mulHighStep_of_bit_clear (x acc : Wide) {y : Wide} {i : Nat} (hbit : y.hi.getLsbD i = false) :
    mulHighStep x y acc i = acc :=
  if_neg (ne_true_of_eq_false hbit)

/-- R98: a turn over `b.hi` keeps the low word. -/
theorem mulHighStep_lo (x y acc : Wide) (i : Nat) : (mulHighStep x y acc i).lo = acc.lo := by
  cases hbit : y.hi.getLsbD i with
  | true => rw [mulHighStep_of_bit_set x acc hbit, addHigh]
  | false => rw [mulHighStep_of_bit_clear x acc hbit]

/-- Settles O53: a turn over `b.hi` is an add into the high word alone, and what is left of the operand's number above
the word boundary is the low word's shift (`shifted_low_word_modEq`). -/
theorem mulHighBits : Obligations.MulHighBits := by
  refine fun x x' y acc i => ⟨mulHighStep_lo x y acc i, fun hbit => ?_, mulHighStep_of_bit_clear x acc,
    fun hlo => ?_, fun _ => ?_⟩
  · rw [mulHighStep_of_bit_set x acc hbit, addHigh]
  · rw [mulHighStep, mulHighStep, hlo]
  · have hlt := (x.lo <<< i).isLt
    rw [Nat.pow_add, ← Nat.mul_assoc]
    exact Nat.mod_eq_of_modEq (shifted_low_word_modEq x i).symm (by omega)

/-! ## The closed form and the laws -/

/-- Settles O52: `mul128_val`. -/
theorem mulClosedForm : Obligations.MulClosedForm := mul128_val

/-- R99: commutative, as the product of the numbers is. -/
theorem mul128_comm (x y : Wide) : mul128 x y = mul128 y x :=
  Wide.val_injective (by rw [mul128_val, mul128_val, Nat.mul_comm])

/-- R99: 1 is the unit, a value being below the modulus. -/
theorem mul128_one (x : Wide) : mul128 x { lo := 1, hi := 0 } = x := by
  have hone : Wide.val { lo := 1, hi := 0 } = 1 := rfl
  exact Wide.val_injective (by rw [mul128_val, hone, Nat.mul_one, Nat.mod_eq_of_lt x.val_lt])

/-- R99: 0 absorbs. -/
theorem mul128_zero (x : Wide) : mul128 x Wide.zero = Wide.zero := by
  have hzero : Wide.zero.val = 0 := rfl
  exact Wide.val_injective (by rw [mul128_val, hzero, Nat.mul_zero, Nat.zero_mod])

/-- R99: MUL distributes over ADD: a reduction modulo 2^128 of the sum or of the products does not change the last
one. -/
theorem mul128_add128 (x y z : Wide) : mul128 x (add128 y z) = add128 (mul128 x y) (mul128 x z) :=
  Wide.val_injective (by simp only [mul128_val, add128_val, Nat.mul_mod_mod, Nat.mod_add_mod, Nat.add_mod_mod,
    Nat.mul_add])

/-- Settles O54: the laws of the product of numbers, carried over by `mul128_val`. -/
theorem mulLaws : Obligations.MulLaws := by
  refine ⟨mul128_comm, mul128_one, mul128_zero, mul128_add128, Wide.val_injective ?_⟩
  rw [mul128_val]
  decide

end Sys2Proof.Machine
end

section
/-! PROOFS. No exception: one write to CMD has one outcome, in the order of precedence, and the machine always goes on
(60_exceptions R100, R106; 70_reset R114, R128). -/

namespace Sys2Proof.Machine

/-! ## Precedence at CMD -/

/-- R38: the one aligned offset among CMD's eight bytes is CMD's own. -/
theorem eq_offsetOf_cmd {addr : Offset} (hcmd : addr.toNat / 8 = 6) (haligned : addr.toNat % 8 = 0) :
    addr = offsetOf .cmd := by
  have hreg : regAt addr = .cmd := by simp only [regAt, hcmd]
  rw [← offsetOf_regAt addr haligned, hreg]

/-- Settles O15: `illegalTransactionIsBusError` off CMD's own offset or size, and on it `step_rejectedCommand`,
`step_illegalCommand` and `step_acceptedCommand`, in the order of R106. -/
theorem commandWritePrecedence : Obligations.CommandWritePrecedence := by
  intro s addr n v rest hr hcmd he
  split
  next hbad =>
    obtain ⟨hbus, -⟩ := illegalTransactionIsBusError s addr n v rest hr
    obtain ⟨-, hwrite⟩ := hbus hbad
    exact hwrite he
  next hlegal =>
    obtain ⟨rfl, haligned⟩ : n = 8 ∧ addr.toNat % 8 = 0 := by simpa using hlegal
    rw [eq_offsetOf_cmd hcmd haligned] at he
    split
    next hbusy => exact step_rejectedCommand hbusy hr he
    next hidle =>
      have hb : s.busy = false := by simpa using hidle
      split
      next hd => exact step_illegalCommand hb hr he hd
      next hd => exact step_acceptedCommand hb hr hd he

/-! ## The machine goes on -/

/-- R114, R128: a step answers a next state, or it is the refusal of a transaction during reset. -/
theorem step_next_or_refused (s : State) :
    (∃ t, step s = .next t) ∨
      (step s = .refused .transactionDuringReset ∧ s.rst = true ∧
        ∃ (x : Transaction) (rest : List Event), s.events = .host x :: rest) := by
  match he : s.events with
  | [] => exact .inl ⟨_, step_nil s he⟩
  | .host x :: rest =>
    cases hr : s.rst with
    | false => exact .inl ⟨_, step_host s x rest he hr⟩
    | true => exact .inr ⟨step_host_in_reset s x rest he hr, rfl, x, rest, rfl⟩
  | .completion :: rest => exact .inl ⟨_, step_completion s rest he⟩
  | .rst true :: rest => exact .inl ⟨_, step_rst_true s rest he⟩
  | .rst false :: rest => exact .inl ⟨_, step_rst_false s rest he⟩

/-- Settles O56: `step_next_or_refused`, whose refusal needs `rst`; there is no fault to name (R100). -/
theorem machineNeverStops : Obligations.MachineNeverStops := by
  refine fun s => ⟨fun hr => ?_, fun hb hr => by simp [completionEnabled, hb, hr], nofun, fun x hx => ?_⟩
  · obtain hnext | ⟨-, hreset, -⟩ := step_next_or_refused s
    · exact hnext
    · simp [hr] at hreset
  · obtain ⟨t, ht⟩ | ⟨hrefused, hreset, hhost⟩ := step_next_or_refused s
    · cases ht.symm.trans hx
    · cases hrefused.symm.trans hx
      exact ⟨rfl, hreset, hhost⟩

end Sys2Proof.Machine
end

section
/-! PROOFS. Reset: its assertion, the steps not taken while it is asserted, and the commands it leaves the block ready
for (70_reset R114, R117). -/

namespace Sys2Proof.Machine

/-! ## The assertion of reset -/

/-- R72, R114: a completion listed where it is not enabled is taken off the list, and nothing else happens. -/
theorem step_disabled_completion {s : State} {rest : List Event} (hoff : s.busy = false ∨ s.rst = true)
    (he : s.events = .completion :: rest) : step s = .next (takeEvents rest s) := by
  rw [step_completion s rest he]
  obtain hb | hr := hoff
  · rw [completeIfEnabled_of_not_busy (takeEvents rest s) hb]
  · rw [completeIfEnabled_of_reset (takeEvents rest s) hr]

/-- Settles O2: the two changes of `rst` are their own steps, a transaction during reset is refused, and a completion
is not enabled during reset or while idle. -/
theorem resetAssertion : Obligations.ResetAssertion := by
  refine fun s rest => ⟨step_rst_true s rest, step_rst_false s rest, fun hr x he => step_host_in_reset s x rest he hr,
    fun hr => step_disabled_completion (.inr hr), fun hr he => ?_, fun hb => step_disabled_completion (.inl hb)⟩
  rw [step_nil s he, completeIfEnabled_of_reset s hr]

/-! ## Commands on the operands of reset -/

/-- R117: every command has the outcome 0 on zeros; SUB does not underflow. -/
theorem outcome_zero (i : Instr) : outcome i Wide.zero Wide.zero = some Wide.zero := by
  cases i with
  | add => exact congrArg some (add128_zero Wide.zero)
  | sub => exact (sub128_eq_some_iff Wide.zero Wide.zero Wide.zero).2 rfl
  | mul => exact congrArg some (mul128_zero Wide.zero)

/-- Settles O55: the command is accepted with zeros in its snapshot, its completion publishes `outcome_zero`, and every
flag is then as at reset. -/
theorem commandsAfterReset : Obligations.CommandsAfterReset := by
  intro i rest
  have haccept := step_acceptedCommand
    (s := { State.reset with events := .host (.write 0x30 8 (encode i)) :: .completion :: rest })
    rfl rfl (decode_encode i) rfl
  have hcomplete := (completesCommand_of_events
    (s := respond .ok (acceptCommand i { State.reset with events := .completion :: rest }))
    rfl rfl rfl).step_eq_publish rfl (outcome_zero i)
  obtain ⟨-, -, -, hstatus, -⟩ := resetState
  exact ⟨_, (runSteps_add 1 (runSteps_one haccept)).trans (runSteps_one hcomplete), rfl, rfl, hstatus, rfl⟩

end Sys2Proof.Machine
end
